-- ==== Sys2Proof/Word.lean ====
section
/-!
DEFINITION. The word types of the device and the shape of a sparse table.
-/
namespace Sys2Proof

/-- One byte of a memory. -/
abbrev Byte := BitVec 8
/-- A CFG register, a half of a 64-bit register (R12, R123). -/
abbrev W32 := BitVec 32
/-- A Teamster register, an instruction or command word (R88, R124). -/
abbrev W64 := BitVec 64

/-- A sparse map from a number to a value: the keys rise strictly, and no entry equals what an
unlisted key reads as. The operations and that form are in Machine/Table.lean. -/
abbrev Tbl (α : Type) := List (Nat × α)

/-- A memory: its listed bytes, by address. -/
abbrev Memory := List Host.Cell

end Sys2Proof
end

