-- ==== Sys2Proof/Syntax.lean ====
section
/-!
DEFINITION. The commands of the device: one constructor of `Instr` for each row of
spec/opcode_table.json, with the row's operands. A row that is a Teamster instruction or an engine
command names the core (or the Team) that executes it; its operand fields are in the instruction or
command word that the core holds. What the spec leaves to timing or to the outside world (how many
slots carried bubbles, a temperature, a packet) is an operand.
-/
namespace Sys2Proof

/-- Who makes a CFG access: the PF, the DRT on the host cores, VF `v`, or the management port. -/
inductive Port where
  | pf
  | drt
  | vf (v : Nat)
  | mgmt
deriving DecidableEq, Repr

/-- The engines that take commands (Table TC-1), by their queue. -/
inductive Eng where
  | mq | xq | vq | dq | kq | eq | fq
deriving DecidableEq, Repr

/-- The array slots and cycles of one run of the Matrix unit that its timing decides (R67, R87). -/
structure MxTiming where
  active : Nat
  weight : Nat
  starve : Nat
  drain : Nat
  align : Nat
deriving DecidableEq, Repr

/-- The coding profiles that Table VF-7 tells apart. -/
inductive CodingProfile where
  | constrainedBaseline
  | baseline
  | main
  | high
  | main10
  | other
deriving DecidableEq, Repr

/-- What the stream says of an access unit: whether it is a random-access point; its profile, its level times ten and whether
it is of the High tier; the stream's rate in Mpix/s; whether it uses a feature that Table VF-7 excludes within a profile (field
or MBAFF coding, FMO, ASO, redundant slices, layers, an extension, large-scale tiles); and its frame size (R308). -/
structure UnitInfo where
  rap : Bool
  profile : CodingProfile
  level : Nat
  highTier : Bool
  rate : Nat
  excluded : Bool
  w : Nat
  h : Nat
deriving DecidableEq, Repr

/-- A decoded picture: samples of 10 bits or of 8; its rows of luma, and of Cb and Cr at half size; the blocks that cannot be
decoded, each as its corner and its size in luma pixels (R309); and the frame buffers that later pictures still refer to. -/
structure Picture where
  ten : Bool
  luma : List (List Nat)
  cb : List (List Nat)
  cr : List (List Nat)
  bad : List (Nat × Nat × Nat × Nat)
  refs : List Nat
deriving DecidableEq, Repr


/-- What the board and the parts around the device show when a boot begins (R385 to R409): the straps; the bytes
manufacture has put into the fuses, which count while VARIANT is blank; whether a fuse word was corrected, or one
below 0x100 is uncorrectable; the flash bytes rewritten by other board agents; whether the flash answers in
time, and the image sets whose stage 1 it does not deliver in time; the GDDR6 channels whose full training
fails, and the capacity code; whether the block protection reads back; the time from t0 to the start of the
host cores in microseconds; and the device time in ns. -/
structure Board where
  recovN : Bool
  coolB : Bool
  mgmtMode : Bool
  mgmtAddr : Nat
  fuses : List (Nat × Nat)
  fuseCe : Bool
  fuseUe : Bool
  flash : List (Nat × Nat)
  flashOk : Bool
  slow : List Nat
  failed : List Nat
  capacity : Nat
  protect : Bool
  us : Nat
  now : Nat
deriving DecidableEq, Repr


/-- The commands. -/
inductive Instr where
  /-- A write to a CFG register that has no row of its own sets its fields, or is ignored, or sets WRITE_REJECT under the locked-field and range rules (R523). -/
  | registerWrite (port : Port) (now : Nat) (off : Nat) (w : W32)
  /-- At each tick edge the device takes the snapshot and applies it class by class, then admits the tick's work (R37). -/
  | tickEdge (now : Nat) (spent : List (Nat × Nat)) (busy : List (Nat × Nat))
  /-- A write of TP_US is checked for range and JOB_LOCK and takes effect at the next edge, re-anchoring the grid (R35). -/
  | pacePeriodWrite (port : Port) (w : W32)
  /-- A write of 1 to ENABLE starts ticking by the source's rule, or cancels a pending stop (R56). -/
  | paceEnable (port : Port) (now : Nat) (w : W32)
  /-- A write of 0 to ENABLE, while not job-locked, stops ticking at the next edge (R57). -/
  | paceDisable (port : Port) (now : Nat) (w : W32)
  /-- A received PTP Sync message updates the offset, lock state and slew or step of the tick grid (R50). -/
  | ptpSync (f : Nat) (now : Nat) (offset : Int)
  /-- A PTP instance loses lock; the other LOCKED port takes over, or HOLDOVER is entered when none is locked (R49). -/
  | ptpLockLost (f : Nat) (now : Nat)
  /-- HOLD_MS elapsing without relock sets PTP_LOST, reported as a class 2 event (R53). -/
  | ptpLost (now : Nat)
  /-- A rising edge on PACE_IN is compared with the device edge and slewed toward, or rejected and counted (R54). -/
  | paceInEdge (now : Nat) (diff : Int)
  /-- An expected PACE_IN edge fails to arrive; after three consecutive misses PACE_IN_LOST is set and HOLDOVER entered (R54). -/
  | paceInEdgeMissing
  /-- An armed PACE timer reaches its deadline, clears ARM and latches its expiry for the next snapshot (R58). -/
  | paceTimerExpire (n : Nat) (now : Nat)
  /-- Teamster no-operation (R127). -/
  | nop (n : Nat)
  /-- RD = S[RS1] + S[RS2] modulo 2^64 (R127). -/
  | add (n : Nat)
  /-- RD = S[RS1] − S[RS2] modulo 2^64 (R127). -/
  | sub (n : Nat)
  /-- RD = S[RS1] AND S[RS2] (R127). -/
  | and (n : Nat)
  /-- RD = S[RS1] OR S[RS2] (R127). -/
  | or (n : Nat)
  /-- RD = S[RS1] XOR S[RS2] (R127). -/
  | xor (n : Nat)
  /-- Shift left logical by the low 6 bits of S[RS2] (R128). -/
  | sll (n : Nat)
  /-- Shift right logical by the low 6 bits of S[RS2] (R128). -/
  | srl (n : Nat)
  /-- Shift right arithmetic, filling with the sign bit (R128). -/
  | sra (n : Nat)
  /-- RD = 1 if S[RS1] < S[RS2] signed, else 0 (R127). -/
  | slt (n : Nat)
  /-- RD = 1 if S[RS1] < S[RS2] unsigned, else 0 (R127). -/
  | sltu (n : Nat)
  /-- RD = S[RS1] + IMM (R127). -/
  | addi (n : Nat)
  /-- RD = S[RS1] AND IMM (R127). -/
  | andi (n : Nat)
  /-- RD = S[RS1] OR IMM (R127). -/
  | ori (n : Nat)
  /-- RD = S[RS1] XOR IMM (R127). -/
  | xori (n : Nat)
  /-- Shift left logical by IMM[5:0] (R128). -/
  | slli (n : Nat)
  /-- Shift right logical by IMM[5:0] (R128). -/
  | srli (n : Nat)
  /-- Shift right arithmetic by IMM[5:0] (R128). -/
  | srai (n : Nat)
  /-- RD = 1 if S[RS1] < IMM signed, else 0 (R127). -/
  | slti (n : Nat)
  /-- RD = 1 if S[RS1] < sign-extended IMM unsigned, else 0 (R128). -/
  | sltiu (n : Nat)
  /-- RD = sign-extended IMM (R127). -/
  | li (n : Nat)
  /-- RD[63:32] = IMM with RD[31:0] unchanged (R128). -/
  | lih (n : Nat)
  /-- RD = low 64 bits of the product (R127). -/
  | mul (n : Nat)
  /-- RD = high 64 bits of the signed product (R127). -/
  | mulh (n : Nat)
  /-- RD = high 64 bits of the unsigned product (R127). -/
  | mulhu (n : Nat)
  /-- Signed division truncating toward zero, never faulting (R129). -/
  | div (n : Nat)
  /-- Unsigned division, never faulting (R129). -/
  | divu (n : Nat)
  /-- Signed remainder with the sign of the dividend (R129). -/
  | rem (n : Nat)
  /-- Unsigned remainder (R129). -/
  | remu (n : Nat)
  /-- Load 8 bits sign-extended from the core store, faulting at or above STORE_TOP (R130). -/
  | ldB (n : Nat)
  /-- Load 16 bits sign-extended from the core store (R130). -/
  | ldH (n : Nat)
  /-- Load 32 bits sign-extended from the core store (R130). -/
  | ldW (n : Nat)
  /-- Load 64 bits from the core store (R130). -/
  | ldD (n : Nat)
  /-- Load 8 bits zero-extended from the core store (R130). -/
  | lduB (n : Nat)
  /-- Load 16 bits zero-extended from the core store (R130). -/
  | lduH (n : Nat)
  /-- Load 32 bits zero-extended from the core store (R130). -/
  | lduW (n : Nat)
  /-- Store the low 8 bits of S[RS2] into the core store (R130). -/
  | stB (n : Nat)
  /-- Store the low 16 bits of S[RS2] into the core store (R130). -/
  | stH (n : Nat)
  /-- Store the low 32 bits of S[RS2] into the core store (R130). -/
  | stW (n : Nat)
  /-- Store 64 bits of S[RS2] into the core store (R130). -/
  | stD (n : Nat)
  /-- Branch to IMM[12:0] if S[RS1] equals S[RS2] (R131). -/
  | beq (n : Nat)
  /-- Branch if S[RS1] differs from S[RS2] (R131). -/
  | bne (n : Nat)
  /-- Branch if S[RS1] < S[RS2] signed (R131). -/
  | blt (n : Nat)
  /-- Branch if S[RS1] >= S[RS2] signed (R131). -/
  | bge (n : Nat)
  /-- Branch if S[RS1] < S[RS2] unsigned (R131). -/
  | bltu (n : Nat)
  /-- Branch if S[RS1] >= S[RS2] unsigned (R131). -/
  | bgeu (n : Nat)
  /-- Jump to IMM[12:0] and write the link to RD (R131). -/
  | jal (n : Nat)
  /-- Jump to S[RS1] + IMM, faulting LENGTH_BOUNDS at 8,192 or beyond (R131). -/
  | jalr (n : Nat)
  /-- Read a Teamster CSR into RD, faulting for an undefined CSR number (R132). -/
  | csrr (n : Nat)
  /-- Write S[RS1] to an RW CSR; other CSRs ignore the write (R132). -/
  | csrw (n : Nat)
  /-- Set CTAG.TAG and CTAG.AUTO from IMM in one instruction (R132). -/
  | setTag (n : Nat)
  /-- Return STORE_TOP and raise it by the rounded size, faulting STORE_OVERFLOW past the store (R99). -/
  | salloc (n : Nat)
  /-- Lower STORE_TOP to a legal value, or fault with LENGTH_BOUNDS (R100). -/
  | sreset (n : Nat)
  /-- Check and write a queue descriptor once the queue is empty, leaving it empty at BASE (R102). -/
  | qcfg (n : Nat)
  /-- Commit k elements written into a queue ring by address, with the checks of R106 (R106). -/
  | qadvT (n : Nat)
  /-- Release k elements from the head of a queue without reading them (R106). -/
  | qadvH (n : Nat)
  /-- Copy a template, patch it, stamp the tag, decode and enqueue it on an engine command queue (R110). -/
  | issue (n : Nat)
  /-- Stall the Teamster until a semaphore count reaches k (R115). -/
  | waitSem (n : Nat)
  /-- A stalled WAIT finds the count at least k, subtracts k and completes (R115). -/
  | waitSatisfied (n : Nat)
  /-- Add k to a local or remote semaphore, faulting on overflow or an illegal target (R114). -/
  | signalSem (n : Nat)
  /-- Claim the next tile index of a Tally counter atomically at its home (R118). -/
  | takeTile (n : Nat)
  /-- Stop the Teamster; the core's part of the job completes when its commands and signals are done (R98). -/
  | halt (n : Nat)
  /-- Stop the Teamster on itself with a code reported to the DBG block, leaving the job unfinished (R138). -/
  | brk (n : Nat)
  /-- A matrix pass begins at the MQ head, feeding rows through the four arrays into accumulator memory or the Crupper chain (R142). -/
  | mmul (n : Nat) (t : MxTiming)
  /-- A replay ends: a pass counts a transient; a further mismatch faults the command with CHECK_MISMATCH (R466). -/
  | guardReplayEnd (n : Nat) (persistent : Bool) (cycles : Nat)
  /-- Free an accumulator handle once no earlier row naming it is in flight (R147). -/
  | mfree (n : Nat)
  /-- Drain a handle's rows through the Crupper chain and free the handle (R148). -/
  | mdrain (n : Nat) (t : MxTiming)
  /-- Check a Crupper parameter block and write it into a slot, after earlier users have drained (R149). -/
  | xcfg (n : Nat)
  /-- Copy, transpose, decompress or fill rows between stores, objects and queues, optionally adding on write (R152). -/
  | dmove (n : Nat)
  /-- Read stored KV tokens of a context into token and scale queues (R155). -/
  | kfetch (n : Nat)
  /-- Append tokens of one unit to a context, opening or completing an append group (R243). -/
  | kappend (n : Nat)
  /-- The Team Edge engine performs a few-channel direct convolution (R156). -/
  | econv (t : Nat)
  /-- The Edge engine decodes boxes and writes a candidate list (R157). -/
  | ebox (t : Nat)
  /-- The Edge engine runs non-maximum suppression over a candidate list (R157). -/
  | enms (t : Nat)
  /-- The Team FFT engine runs a batch of 1-D or 2-D complex transforms (R158). -/
  | fftc (t : Nat)
  /-- Start a vector kernel at ENTRY with A0 to A5 set from the command (R174). -/
  | vcall (n : Nat)
  /-- Run a sliding-window depthwise or grouped convolution on the Vector engine (R177). -/
  | vwin (n : Nat) (held : Nat)
  /-- An engine command's last write commits and its semaphore signal is applied (R112). -/
  | commandComplete (u : Nat) (e : Eng)
  /-- A remote semaphore signal reaches the target core's count 12 or 24 cycles after it was sent (R256). -/
  | remoteSignalArrive (src : Nat) (dst : Nat)
  /-- The outcome of a remote signal returns to the sending core, charging any overflow fault to its job (R256). -/
  | signalOutcomeReturn (src : Nat) (dst : Nat)
  /-- One vector bundle issues its three slots, or does not issue when held or faulted (R162). -/
  | vectorBundle (n : Nat)
  /-- A vector operation's result lands in its register L cycles after issue, in landing order (R165). -/
  | vectorResultLand (n : Nat)
  /-- DISP_PLOAD_CMD OP LOAD checks an image and loads it into every core of a partition's Teams (R94). -/
  | programLoad (port : Port) (p : Nat)
  /-- The loaded contents are measured, the chains updated and the load becomes COMPLETE (R420). -/
  | programLoadComplete
  /-- The Dispatcher starts an admitted job on a core, arming its counter and copying the argument block (R97). -/
  | jobStart (n : Nat)
  /-- A core's part of a job completes after HALT, its commands and its signal outcomes (R98). -/
  | jobCoreComplete (n : Nat) (cycles : Nat)
  /-- COAL_US elapses after the first unsignalled record and the ring's vector is signalled (R336). -/
  | coalesceTimeout (r : Nat)
  /-- Team gating completes within 2 µs; a request held meanwhile wakes it at once (R85). -/
  | gatingComplete (t : Nat)
  /-- A request to a gated Team wakes it and is held (R84). -/
  | teamWake (t : Nat)
  /-- The woken Team is powered and executing and its held requests proceed (R84). -/
  | teamWakeComplete (t : Nat)
  /-- Set a Tally counter's EPOCH and LIMIT, clear NEXT, HWM and the bitmap (R259). -/
  | arm (port : Port) (t : Nat) (c : Nat)
  /-- Set a Tally counter's NEXT to ARG1 (R259). -/
  | rewind (port : Port) (t : Nat) (c : Nat)
  /-- Set a Tally counter's EPOCH to 0 (R259). -/
  | disarm (port : Port) (t : Nat) (c : Nat)
  /-- STAB_CMD LOAD checks a range of objects and allocates, places and zero-fills them (R270). -/
  | stabLoad (port : Port) (p : Nat)
  /-- An object's zero-fill completes and it becomes loaded at the next edge (R270). -/
  | loadFillComplete (p : Nat) (id : Nat)
  /-- STAB_CMD FREE makes references refused and releases space once no older command is in flight (R270). -/
  | stabFree (port : Port) (p : Nat)
  /-- STAB_CMD CLEAR_LOST clears the LOST mark of a rewritten object (R278). -/
  | clearLost (port : Port) (p : Nat)
  /-- A write of STAB_QUERY makes STAB_QHEAT and STAB_QLOC report the named object (R283). -/
  | stabQuery (port : Port) (p : Nat) (id : Nat)
  /-- A segment's migration copy completes and it switches at the next edge (R275). -/
  | migrationCopyComplete (p : Nat) (id : Nat) (sg : Nat)
  /-- A channel is retrained on its period or a temperature move, becoming FAILED after two failures (R266). -/
  | gddrRetrain (c : Nat) (ok : Bool)
  /-- A GDDR6 burst fails its link CRC and is retried, retraining the channel after a fourth failure (R264). -/
  | gddrCrcFail (c : Nat) (nth : Nat)
  /-- The patrol scrub reads and corrects GDDR6 granules over its period (R267). -/
  | gddrScrub (a : Nat) (flips : Nat)
  /-- On-chip SRAMs are patrol-scrubbed hourly and corrected words written back (R460). -/
  | sramScrub (m : Nat) (unit : Nat) (a : Nat) (flips : Nat) (dom : Nat) (now : Nat)
  /-- KVA_CMD ACTIVATE checks and activates a KV context at the next snapshot (R242). -/
  | kvActivate (port : Port) (p : Nat) (x : Nat)
  /-- KVA_CMD RELEASE sets a context RELEASING (R242). -/
  | kvRelease (port : Port) (p : Nat) (x : Nat)
  /-- Once no command on a RELEASING context is in flight its pages return and it becomes FREE (R242). -/
  | kvReleaseComplete (p : Nat) (x : Nat)
  /-- A frame is given to the free list of its size code, or rejected (R241). -/
  | kvaFreePush (port : Port) (p : Nat) (w : W32)
  /-- A write to KVA_CTL_BASE, KVA_CTX_RANGE or KVA_ARENA takes effect or is rejected with CMD_REJECT (R242). -/
  | kvaConfigWrite (port : Port) (p : Nat) (off : Nat) (w : W32)
  /-- VIS_CTX_CMD ACTIVATE checks a stream context and makes it ACTIVE (R287). -/
  | activate (port : Port) (n : Nat)
  /-- VIS_CTX_CMD DEACTIVATE makes a stream context DRAINING and discards its jitter buffer (R288). -/
  | deactivate (port : Port) (n : Nat)
  /-- A write to a stream-context descriptor is accepted, or judged at the snapshot and rejected (R286). -/
  | streamCtxWrite (port : Port) (n : Nat) (d : Nat) (w : W32)
  /-- VS becomes active on a raw port, a frame opens and a frame buffer is allocated (R291). -/
  | rawFrameOpen (p : Nat)
  /-- HS becomes active, closing the current line and opening a new one (R291). -/
  | rawLineStart (p : Nat)
  /-- VS becomes inactive, closing the frame with length checks and padding (R292). -/
  | rawFrameClose (p : Nat) (now : Nat)
  /-- TIMEOUT_US passes without HS or DE and the frame closes flagged TIMEOUT (R291). -/
  | rawTimeout (p : Nat) (now : Nat)
  /-- The ISP writes a frame's last lines, chroma and statistics and the frame is complete (R294). -/
  | ispFrameComplete (p : Nat)
  /-- A commit makes the shadow ISP set active at the port's next frame open (R295). -/
  | rawIspCommit (port : Port) (p : Nat) (w : W32)
  /-- An RTP camera packet is matched to a context, depacketised and stored in its jitter ring (R301). -/
  | cameraPacket (f : Nat) (now : Nat) (frame : List Nat)
  /-- REORDER_US passes after a gap and the missing packets are declared lost (R304). -/
  | packetLossDeclared (n : Nat) (now : Nat)
  /-- JITTER_US after its first packet a complete access unit is released to its decoder (R305). -/
  | accessUnitRelease (n : Nat) (now : Nat)
  /-- A decoder begins a released access unit, allocating a frame buffer (R309). -/
  | decodeStart (d : Nat) (info : UnitInfo)
  /-- A decoder finishes an access unit, with concealment where references are missing (R309). -/
  | decodeComplete (d : Nat) (p : Picture)
  /-- A decoder not finishing within its limit fences its group with FAILURE (R467). -/
  | decoderTimeout (d : Nat)
  /-- VIS_FB_RELEASE releases a frame buffer, free once its last use ends (R310). -/
  | fbRelease (port : Port) (n : Nat) (fb : Nat)
  /-- A free Swage engine takes the next queued job with its profile as it stands (R318). -/
  | swageJobStart (e : Nat)
  /-- A Swage job writes its output slot, or skips it as busy or bad (R317). -/
  | swageJobComplete (e : Nat)
  /-- An H.265 encoder begins a frame of an ENCEN context (R312). -/
  | encodeStart (e : Nat)
  /-- An encoded picture is written to the encoder ring with its header (R313). -/
  | encodeComplete (e : Nat) (b : List Nat)
  /-- A write of VIS_JPEG_SUBMIT_HI queues a JPEG job (R314). -/
  | jpegSubmit (port : Port) (w : W32)
  /-- The JPEG encoder begins the next queued job (R314). -/
  | jpegJobStart
  /-- A JPEG job writes its STATUS half, with ERR on failure, and sets JPEG_DONE (R314). -/
  | jpegJobComplete (b : List Nat)
  /-- A submission doorbell is accepted and sets SQ_TAIL, or is ignored with DB_ERR (R332). -/
  | dbSqTail (port : Port) (r : Nat) (w : W32)
  /-- A completion-head doorbell releases records at once, or is ignored (R332). -/
  | dbCqHead (port : Port) (r : Nat) (w : W32)
  /-- A ring abort ends its taken, running and published work ABORTED with HOST_ABORT (R338). -/
  | dbAbort (port : Port) (r : Nat) (w : W32)
  /-- The HQE takes a published descriptor once CQ room and a buffer entry exist, and decodes it (R333). -/
  | descriptorTake (r : Nat)
  /-- A write setting EN is checked at the snapshot and the ring's counts are reset (R330). -/
  | ringEnable (port : Port) (r : Nat) (w : W32)
  /-- A write clearing EN is accepted only when nothing is pending (R330). -/
  | ringDisable (port : Port) (r : Nat) (w : W32)
  /-- A write of GPCT, a GUARANTEED share or budget is checked against the capacity condition (R344). -/
  | dispShareWrite (port : Port) (off : Nat) (w : W32)
  /-- An FLR of a VF aborts every ring of the VF with FENCE and clears EN (R338). -/
  | vfFlr (v : Nat)
  /-- An FLR of the PF is a device reset request (R468). -/
  | pfFlr
  /-- A received Harness ACK returns credits and acknowledges a flow, triggering fast retransmission of gaps (R364). -/
  | ackMsg (f : Nat) (frame : List Nat)
  /-- A received Harness DATA message is applied in flow order, writing bytes into the job partition (R362). -/
  | dataMsg (f : Nat) (frame : List Nat)
  /-- A received BARRIER message records a member's arrival for a tick or operation barrier (R376). -/
  | barrierMsg (f : Nat) (frame : List Nat)
  /-- The leader applies a member's allowed-frequency report and may send FANN (R373). -/
  | freqMsg (f : Nat) (frame : List Nat)
  /-- A frequency announcement sets F_job and any TP change at its effective tick (R374). -/
  | fannMsg (f : Nat) (frame : List Nat)
  /-- A received JOIN with its digest is counted toward forming the job (R369). -/
  | membJoin (f : Nat) (frame : List Nat)
  /-- A received LEAVE removes the member from the job at its effective tick (R370). -/
  | membLeave (f : Nat) (frame : List Nat)
  /-- A received JFAULT faults the job at this member with its late bitmap (R377). -/
  | jfaultMsg (f : Nat) (frame : List Nat)
  /-- A received frame matching no other destination is passed to the host cores (R357). -/
  | hostCoreFrame (f : Nat) (frame : List Nat)
  /-- 2 µs after an unacknowledged message the receiver sends an ACK (R364). -/
  | ackTimer (p : Nat)
  /-- RTO_US elapses and the message is retransmitted, the flow going DOWN after RETRY_MAX (R364). -/
  | retransmitTimeout (p : Nat) (seq : Nat)
  /-- A fabric port's link fails and every flow moves to the other plane (R366). -/
  | portDown (f : Nat) (now : Nat)
  /-- A fabric port's link is restored and its ingest addresses move back (R366). -/
  | portUp (f : Nat)
  /-- Every 10 ms the device tries a plane it stopped using toward a peer (R366). -/
  | planeRetry (p : Nat) (f : Nat)
  /-- FAB_JOB_CMD JOIN is checked and enters JOINING, sending MEMB JOIN to every member (R368). -/
  | fabJoin (port : Port)
  /-- FAB_JOB_CMD LEAVE sends MEMB LEAVE and takes effect two edges later (R370). -/
  | fabLeave (port : Port)
  /-- The leader accepts a new TP and announces it in a FANN (R371). -/
  | fabJobTpWrite (port : Port) (w : W32)
  /-- The DRT's arrival at a tick barrier latches and sends BARRIER to every member (R375). -/
  | fabJobArrive (port : Port) (w : W32)
  /-- At TP / 2 after the edge the leader sends FANN using last known reports for missing members (R373). -/
  | fannDeadline (now : Nat)
  /-- A barrier not complete after BTO ticks faults the job and sends JFAULT (R377). -/
  | barrierTimeout (now : Nat)
  /-- A broadcast collective writes ROOT's bytes on every member (R381). -/
  | bcast
  /-- A ring all-reduce writes the element-wise reduction on every member (R381). -/
  | allreduce
  /-- A halo collective writes each entry into its peer and awaits NIN regions (R381). -/
  | halo
  /-- An operation barrier completes when every member's KIND 1 BARRIER has been applied (R381). -/
  | operationBarrier
  /-- Rails good and RESET_N high for 2 ms define t0 and the boot proceeds by its steps (R385). -/
  | bootStart (b : Board)
  /-- The firmware's write of ASSAY_RETRY resets every domain but AON and retries the other image set (R398). -/
  | assayRetry (b : Board)
  /-- RESET_N goes low and the device enters cold reset (R386). -/
  | coldReset
  /-- A rail other than VDD_AON leaves its good range and the device enters cold reset (R386). -/
  | railFault
  /-- PERST_N low resets every domain but AON and boot restarts by the full path (R386). -/
  | perst
  /-- In recovery the ROM copies a staged 4 KiB page into the stage 1 window (R407). -/
  | loadPage (port : Port) (page : Nat)
  /-- In recovery the ROM checks the staged stage 1 image and runs it or rejects it (R407). -/
  | recovVerify (port : Port)
  /-- A carve-out change is checked and takes effect after dirty lines are written back (R404). -/
  | hostcoreMemCfgWrite (port : Port) (w : W32)
  /-- Write back every dirty line of the host-core L2 cache (R404). -/
  | flush (port : Port)
  /-- Drop every line of the host-core L2 cache (R404). -/
  | invalidate (port : Port)
  /-- Write back and drop every line of the host-core L2 cache (R404). -/
  | flushInv (port : Port)
  /-- A carve-out change or cache operation finishes and BUSY clears (R404). -/
  | cacheOpComplete
  /-- Create a partition owning whole Teams, a GDDR6 range and a stream-context share (R414). -/
  | partCreate (port : Port)
  /-- Fence a partition, free its resources and scrub its memory (R414). -/
  | partRemove (port : Port)
  /-- The removal scrub completes and the partition number and resources become free (R414). -/
  | partScrubComplete (p : Nat)
  /-- Unwrap a bound weight bundle's key, decrypt and check it, and load it as a BOUND object (R427). -/
  | bundleImport (port : Port)
  /-- Free a bound object and clear its key once its space is released (R415). -/
  | bundleDrop (port : Port)
  /-- Write the signed Device Hallmark and, for a partition, its Partition Hallmark (R418). -/
  | hallmark (port : Port)
  /-- A signed request revokes a key slot (R392). -/
  | fuseRevoke (port : Port)
  /-- A signed request programs an unprogrammed key slot's digest (R392). -/
  | fuseProgram (port : Port)
  /-- A signed request raises MINVER_FLOOR (R392). -/
  | fuseFloor (port : Port)
  /-- SPDM request for supported versions (R421). -/
  | getVersion (f : Nat)
  /-- SPDM request for capabilities (R421). -/
  | getCapabilities (f : Nat)
  /-- SPDM algorithm negotiation (R421). -/
  | negotiateAlgorithms (f : Nat) (ok : Bool)
  /-- SPDM request for certificate digests (R421). -/
  | getDigests (f : Nat)
  /-- SPDM request for the slot 0 certificate (R421). -/
  | getCertificate (f : Nat) (slot : Nat)
  /-- SPDM challenge signed with the identity key (R421). -/
  | spdmChallenge (f : Nat) (slot : Nat) (nonce : Nat)
  /-- SPDM request for measurements by index, filtered for VFs (R422). -/
  | getMeasurements (f : Nat) (idx : Nat) (nonce : Nat)
  /-- SPDM session key exchange by DHE secp384r1 (R421). -/
  | keyExchange (f : Nat) (slot : Nat) (nonce : Nat)
  /-- SPDM session establishment finish (R421). -/
  | spdmFinish (f : Nat) (sid : Nat) (ok : Bool)
  /-- SPDM session end (R421). -/
  | endSession (f : Nat) (sid : Nat)
  /-- IDE_KM query (R423). -/
  | ideQuery (f : Nat) (sid : Nat)
  /-- IDE_KM programs an IDE stream key (R423). -/
  | keyProg (f : Nat) (sid : Nat) (k : Nat) (kset : Nat) (dir : Nat) (ch : Nat) (key : Nat) (lo : Nat) (hi : Nat)
  /-- IDE_KM starts an IDE key set (R423). -/
  | kSetGo (f : Nat) (sid : Nat) (k : Nat) (kset : Nat) (dir : Nat) (ch : Nat)
  /-- IDE_KM stops an IDE key set (R423). -/
  | kSetStop (f : Nat) (sid : Nat) (k : Nat) (kset : Nat) (dir : Nat) (ch : Nat)
  /-- TDISP version request (R424). -/
  | getTdispVersion (f : Nat) (sid : Nat) (v : Nat)
  /-- TDISP capabilities request (R424). -/
  | getTdispCapabilities (f : Nat) (sid : Nat) (v : Nat)
  /-- Lock a VF's TDI at the next snapshot, or refuse it (R424). -/
  | lockInterfaceRequest (f : Nat) (sid : Nat) (v : Nat)
  /-- Return the TDI's interface report (R424). -/
  | getDeviceInterfaceReport (f : Nat) (sid : Nat) (v : Nat)
  /-- Return the TDI's state (R424). -/
  | getDeviceInterfaceState (f : Nat) (sid : Nat) (v : Nat)
  /-- Move a locked TDI to RUN (R424). -/
  | startInterfaceRequest (f : Nat) (sid : Nat) (v : Nat) (nonce : Nat)
  /-- Return a TDI to CONFIG_UNLOCKED (R425). -/
  | stopInterfaceRequest (f : Nat) (sid : Nat) (v : Nat)
  /-- A gait write is applied at the snapshot or rejected with GAIT_REJECT (R435). -/
  | reinGaitWrite (port : Port) (w : W32)
  /-- The regulator reports the raised voltage and ACLK moves to the new frequency (R438). -/
  | voltageRampDone (now : Nat)
  /-- Every 1 ms Rein takes a power sample and revises the fast limit (R440). -/
  | reinSample (now : Nat) (p : Nat) (telem : Bool) (warn : Bool)
  /-- At most every 100 ms the sustained limit is lowered or raised from P_sust (R442). -/
  | fSustRevision (now : Nat)
  /-- VR_ALERT_N low sets F_supply at once (R445). -/
  | vrAlert (now : Nat)
  /-- An AVSBus command unacknowledged for 100 µs sets F_supply (R445). -/
  | avsTimeout (now : Nat)
  /-- Every supply source clear for 10 ms removes F_supply (R445). -/
  | fSupplyRemoved (now : Nat)
  /-- Every 1 ms the critical-path monitors set V_crit and the voltage target is commanded (R447). -/
  | avsUpdate (now : Nat) (vcrit : Nat) (meas : Nat)
  /-- A droop detector fires and stretches ACLK of its domain (R449). -/
  | droopDetect (d : Nat) (now : Nat)
  /-- 32 cycles after the voltage recovers the stretch ends (R449). -/
  | stretchEnd (d : Nat) (lost : Nat) (now : Nat)
  /-- Every 1 ms each detector's threshold is revised under ADAPT (R450). -/
  | curbAdapt
  /-- Every 100 µs the sensors are read and the thermal limit revised (R451). -/
  | thermalSample (now : Nat) (temps : List Int)
  /-- A sleep request while stopped fences every domain and enters deep sleep (R454). -/
  | reinSleep (port : Port)
  /-- WAKE_N held low wakes the device from deep sleep (R455). -/
  | wakeN
  /-- REIN_WAKE_TIMER expires and wakes the device (R455). -/
  | wakeTimer
  /-- RAS_CMD RESET fences and resets a domain, or the device for DTYPE 7 (R477). -/
  | rasReset (port : Port) (dtype : Nat) (inst : Nat)
  /-- RAS_CMD RETIRE retires a tensor core (R477). -/
  | rasRetire (port : Port) (dtype : Nat) (inst : Nat)
  /-- RAS_CMD INJECT flips a bit in a core's next checked row (R477). -/
  | rasInject (port : Port) (dtype : Nat) (inst : Nat)
  /-- MCTP control: set the endpoint ID (R478). -/
  | setEndpointId (eid : Nat)
  /-- MCTP control: return the endpoint ID (R478). -/
  | getEndpointId
  /-- MCTP control: return the endpoint UUID (R478). -/
  | getEndpointUuid
  /-- MCTP control: return supported versions (R478). -/
  | getMctpVersionSupport (typ : Nat)
  /-- MCTP control: return supported message types (R478). -/
  | getMessageTypeSupport
  /-- PLDM read of the fixed sensor and effecter repository (R480). -/
  | getPdr (handle : Nat)
  /-- PLDM read of a sensor's last refreshed value (R480). -/
  | sensorReading (id : Nat)
  /-- Register the receiver of PlatformEventMessage events (R481). -/
  | setEventReceiver (eid : Nat)
  /-- Return an effecter's value, or its pending value (R482). -/
  | getEffecterValue (id : Nat)
  /-- Every 100 ms the sensors are refreshed (R480). -/
  | sensorRefresh
  /-- Effecter 1 sets the gait as a management write (R482). -/
  | gaitEffecter (v : Nat)
  /-- Effecter 2 sets REIN_PL_SUST (R482). -/
  | plSustEffecter (v : Nat)
  /-- Effecter 3 sets REIN_PL_FAST (R482). -/
  | plFastEffecter (v : Nat)
  /-- Effecter 4 sets REIN_WINDOW (R482). -/
  | windowEffecter (v : Nat)
  /-- Effecter 5 sets REIN_HOST_LIMIT (R482). -/
  | hostLimitEffecter (v : Nat)
  /-- Effecter 6 requests a device reset at once (R482). -/
  | resetEffecter
  /-- Effecter 7 issues RAS_CMD RESET for a domain (R482). -/
  | domainResetEffecter (v : Nat)
  /-- Effecter 8 requests deep sleep (R482). -/
  | sleepEffecter
  /-- Effecter 9 requests a wake (R482). -/
  | wakeEffecter
  /-- Effecter 10 sets REIN_WAKE_TIMER (R482). -/
  | wakeTimerEffecter (v : Nat)
  /-- Begin a PLDM firmware update, refused when another update runs (R485). -/
  | requestUpdate
  /-- Offer components, refusing other variants or versions below the minimum (R484). -/
  | passComponentTable (c : Nat) (h : List Nat)
  /-- Start transfer of one offered component (R484). -/
  | updateComponent (c : Nat) (h : List Nat)
  /-- Received image data is written into the inactive image set (R484). -/
  | firmwareTransfer (c : Nat) (off : Nat) (b : List Nat)
  /-- Every image of the new set is checked by R396 and the result reported (R484). -/
  | verifyComplete
  /-- Apply follows a successful verify (R484). -/
  | applyComplete
  /-- Write a directory copy making the new set ACTIVE, or start a live DRT update (R484). -/
  | activateFirmware (selfContained : Bool)
  /-- A cancelled or failed update leaves the directory unchanged (R485). -/
  | updateCancel
  /-- Copy, check and lock a new DRT into the live area (R486). -/
  | liveLoad (port : Port)
  /-- Mark a partition moved to the new DRT (R487). -/
  | liveMove (port : Port) (p : Nat)
  /-- Commit the live update once every partition is moved (R487). -/
  | liveCommit (port : Port)
  /-- Abort the live update while no partition is moved (R487). -/
  | liveAbort (port : Port)
  /-- JTAG BYPASS selects the 1-bit register (R488). -/
  | jtagBypass (code : Nat)
  /-- JTAG IDCODE returns 0x10C0_756B (R488). -/
  | jtagIdcode
  /-- JTAG SAMPLE/PRELOAD on the boundary scan register (R488). -/
  | jtagSamplePreload (pins : List Bool) (cells : List Bool)
  /-- JTAG EXTEST drives the boundary scan register (R488). -/
  | jtagExtest (pins : List Bool) (cells : List Bool)
  /-- JTAG CLAMP holds outputs (R488). -/
  | jtagClamp
  /-- JTAG HIGHZ floats outputs (R488). -/
  | jtagHighz
  /-- DBGACC enters the instruction register, recorded as an attach for the Hallmark (R489). -/
  | jtagAttach
  /-- DBGACC leaves the register, resuming stopped cores when no PF session is open (R493). -/
  | jtagDetach
  /-- A DBGACC read of a device physical address (R489). -/
  | dbgaccRead (a : Nat)
  /-- A DBGACC write to a device physical address (R489). -/
  | dbgaccWrite (a : Nat) (w : W32)
  /-- TRST_N low resets the TAP at once (R515). -/
  | tapReset
  /-- Open a PF debug session over a scope of partitions (R490). -/
  | openSession (port : Port) (scope : Nat)
  /-- Close the PF debug session, resuming stopped cores and clearing breakpoints (R493). -/
  | closeSession (port : Port)
  /-- DBG_CORE_CMD HALT stops the core's Teamster (R491). -/
  | debugHalt (port : Port) (n : Nat)
  /-- Resume a stopped core and begin its held command (R493). -/
  | resumeCore (port : Port) (n : Nat)
  /-- Resume the Teamster for one instruction (R493). -/
  | stepCore (port : Port) (n : Nat)
  /-- An internal rail detector sees a rail within 3 % above its lower good limit, and F_supply is set to 600 MHz at once (R445). -/
  | railWarning (now : Nat)
  /-- VDD_AON is lost, which clears the wake record, releases THERMTRIP_N and loses every AON register (R409). -/
  | vddAonLoss
  /-- A sample with DE active on a raw port is stored in the open line, discarded beyond WIDTH with LONG_LINE, or counted in RAW_STRAY outside any line (R291). -/
  | rawPixel (p : Nat) (d : Nat)
  /-- The decrypting copy of a bundle import finishes, the plaintext digest is checked, the content key takes a slot, and the object becomes loaded at the next edge, or the import is refused (R427). -/
  | bundleCopyComplete
  /-- A gated decoder group named by an ACTIVATE finishes powering up within 20 µs, and only then does the context become ACTIVE (R311). -/
  | decoderGroupPowered (g : Nat)
  /-- The Teamster meets an instruction word whose opcode Table XR-2 does not assign, and faults with ILLEGAL_SHAPE with FAULT_INFO.DETAIL holding bits [63:32] (R125). -/
  | unassignedOpcode (n : Nat)
deriving DecidableEq, Repr

end Sys2Proof
end

