-- ==== Sys2Proof/Decode.lean ====
section
/-!
DEFINITION. The commands that words spell. The device takes its commands through registers, packets and pins, and
spec/opcode_table.json gives no row any bits, so no word spells a command. (How a core reads its instruction words is
in Machine/Teamster.lean, Issue.lean and Vector.lean: the words are state of the core, and the rows that execute them
name the core.)
-/
namespace Sys2Proof

/-- The command that `nbits` bits spell: none, since no row of the table has bits. (DEDUCED, log 4) -/
def decodeTableWord (_nbits _w : Nat) : Option Instr := none

end Sys2Proof
end

