-- ==== Sys2Proof/Machine/Float.lean ====
section
/-!
DEFINITION. The number formats of Table NF-1 and their arithmetic (R181 to R185): an operand is
decoded to an exact value, the operation is exact, and one rounding ends it.
-/
namespace Sys2Proof.Machine

/-- A floating-point format of Table NF-1. `maxMag` is the magnitude code of the largest finite
value, `infMag` that of infinity where the format has one, `nanMag` the canonical NaN of R183. -/
structure FFmt where
  ebits : Nat
  fbits : Nat
  bias : Nat
  maxMag : Nat
  infMag : Option Nat
  nanMag : Nat
deriving DecidableEq, Repr

def FFmt.width (f : FFmt) : Nat := 1 + f.ebits + f.fbits

def fmtE4M3 : FFmt := ⟨4, 3, 7, 0x7E, none, 0x7F⟩
def fmtE5M2 : FFmt := ⟨5, 2, 15, 0x7B, some 0x7C, 0x7F⟩
def fmtF16 : FFmt := ⟨5, 10, 15, 0x7BFF, some 0x7C00, 0x7E00⟩
def fmtBF16 : FFmt := ⟨8, 7, 127, 0x7F7F, some 0x7F80, 0x7FC0⟩
def fmtF32 : FFmt := ⟨8, 23, 127, 0x7F7FFFFF, some 0x7F800000, 0x7FC00000⟩
def fmtF64 : FFmt := ⟨11, 52, 1023, 0x7FEFFFFFFFFFFFFF, some 0x7FF0000000000000, 0x7FF8000000000000⟩

/-- An exact value: a finite one is `m * 2 ^ e` with a sign, which zero carries too. -/
inductive FV where
  | nan
  | inf (neg : Bool)
  | fin (neg : Bool) (m : Nat) (e : Int)
deriving DecidableEq, Repr

/-- The value a code stands for. -/
def fdec (f : FFmt) (bits : Nat) : FV :=
  let top := 2 ^ (f.ebits + f.fbits)
  let mag := bits % top
  let neg := decide (bits / top % 2 = 1)
  if mag > f.maxMag then (if f.infMag = some mag then .inf neg else .nan)
  else
    let ef := mag / 2 ^ f.fbits
    let fr := mag % 2 ^ f.fbits
    if ef = 0 then .fin neg fr (1 - (f.bias : Int) - f.fbits)
    else .fin neg (2 ^ f.fbits + fr) ((ef : Int) - f.bias - f.fbits)

/-- How a tie rounds: arithmetic to even (R185), narrowing away from zero (R184). -/
inductive Tie where
  | even
  | away
deriving DecidableEq, Repr

/-- `m / 2 ^ k` rounded to the nearest integer. -/
def roundShift (t : Tie) (m k : Nat) : Nat :=
  let lo := m / 2 ^ k
  let rem2 := 2 * (m % 2 ^ k)
  match t with
  | .away => if rem2 ≥ 2 ^ k then lo + 1 else lo
  | .even => if rem2 > 2 ^ k ∨ (rem2 = 2 ^ k ∧ lo % 2 = 1) then lo + 1 else lo

/-- The magnitude code of `m * 2 ^ e` rounded to the format, the exponent range taken as unbounded
above. Codes of one format are ordered as their values are. -/
def roundMag (f : FFmt) (t : Tie) (m : Nat) (e : Int) : Nat :=
  if m = 0 then 0
  else
    let qmin : Int := 1 - (f.bias : Int) - f.fbits
    let q := max qmin ((m.log2 : Int) + e - f.fbits)
    let n := if q ≤ e then m * 2 ^ (e - q).toNat else roundShift t m (q - e).toNat
    (q - qmin).toNat * 2 ^ f.fbits + n

def signBit (f : FFmt) (neg : Bool) : Nat := if neg then 2 ^ (f.ebits + f.fbits) else 0

/-- The result of an arithmetic operation in a format with infinities (R185). -/
def fenc (f : FFmt) : FV → Nat
  | .nan => f.nanMag
  | .inf neg => signBit f neg + (f.infMag.getD f.maxMag)
  | .fin neg m e =>
    let mag := roundMag f .even m e
    signBit f neg + (if mag > f.maxMag then f.infMag.getD f.maxMag else mag)

/-- A narrowing conversion (R184): the code, and whether a finite value lay beyond the range as
rounded, which is what stage 7 counts (R199). -/
def fnarrow (f : FFmt) : FV → Nat × Bool
  | .nan => (f.nanMag, false)
  | .inf neg => (signBit f neg + (f.infMag.getD f.maxMag), false)
  | .fin neg m e =>
    let mag := roundMag f .away m e
    if mag > f.maxMag then (signBit f neg + f.maxMag, true) else (signBit f neg + mag, false)

/-- An integer as a value. -/
def ofInt (i : Int) : FV := .fin (decide (i < 0)) i.natAbs 0

/-- A finite value rounded to an integer, ties away from zero. -/
def roundInt (neg : Bool) (m : Nat) (e : Int) : Int :=
  let n : Nat := if 0 ≤ e then m * 2 ^ e.toNat else roundShift .away m (-e).toNat
  if neg then -(n : Int) else n

/-- An integer clamped to the signed range of `w` bits, and whether the clamp changed it. -/
def clampInt (w : Nat) (i : Int) : Int × Bool :=
  let lo : Int := -((2 : Int) ^ (w - 1))
  let hi : Int := (2 : Int) ^ (w - 1) - 1
  if i < lo then (lo, true) else if i > hi then (hi, true) else (i, false)

/-- The two's complement code of an integer in `w` bits. -/
def intCode (w : Nat) (i : Int) : Nat := (i % (2 : Int) ^ w).toNat

/-- The signed value of the low `w` bits. -/
def signedOf (w n : Nat) : Int :=
  let m := n % 2 ^ w
  if m ≥ 2 ^ (w - 1) ∧ w > 0 then (m : Int) - (2 : Int) ^ w else m

/-- A floating-point value to a signed integer of `w` bits (R184): NaN gives 0, an infinity
saturates. -/
def fToInt (w : Nat) : FV → Int
  | .nan => 0
  | .inf neg => if neg then -((2 : Int) ^ (w - 1)) else (2 : Int) ^ (w - 1) - 1
  | .fin neg m e => (clampInt w (roundInt neg m e)).1

def FV.neg : FV → FV
  | .nan => .nan
  | .inf s => .inf (!s)
  | .fin s m e => .fin (!s) m e

def FV.abs : FV → FV
  | .nan => .nan
  | .inf _ => .inf false
  | .fin _ m e => .fin false m e

/-- Exact sum. Operations on infinities follow IEEE 754 (R183); an exact zero from operands of
unlike sign is +0. -/
def FV.add : FV → FV → FV
  | .nan, _ => .nan
  | _, .nan => .nan
  | .inf a, .inf b => if a = b then .inf a else .nan
  | .inf a, _ => .inf a
  | _, .inf b => .inf b
  | .fin s1 m1 e1, .fin s2 m2 e2 =>
    let e := min e1 e2
    let x : Int := (m1 * 2 ^ (e1 - e).toNat : Nat)
    let y : Int := (m2 * 2 ^ (e2 - e).toNat : Nat)
    let r : Int := (if s1 then -x else x) + (if s2 then -y else y)
    if r = 0 then .fin (s1 && s2) 0 e else .fin (decide (r < 0)) r.natAbs e

/-- Exact product. -/
def FV.mul : FV → FV → FV
  | .nan, _ => .nan
  | _, .nan => .nan
  | .inf a, .inf b => .inf (a != b)
  | .inf a, .fin s m _ => if m = 0 then .nan else .inf (a != s)
  | .fin s m _, .inf b => if m = 0 then .nan else .inf (s != b)
  | .fin s1 m1 e1, .fin s2 m2 e2 => .fin (s1 != s2) (m1 * m2) (e1 + e2)

/-- Compare: `none` when either is a NaN. -/
def FV.cmp : FV → FV → Option Ordering
  | .nan, _ => none
  | _, .nan => none
  | .inf a, .inf b => some (if a = b then .eq else if a then .lt else .gt)
  | .inf a, _ => some (if a then .lt else .gt)
  | _, .inf b => some (if b then .gt else .lt)
  | .fin s1 m1 e1, .fin s2 m2 e2 =>
    let e := min e1 e2
    let x : Int := (m1 * 2 ^ (e1 - e).toNat : Nat)
    let y : Int := (m2 * 2 ^ (e2 - e).toNat : Nat)
    some (compare (if s1 then -x else x) (if s2 then -y else y))

def FV.isNaN : FV → Bool
  | .nan => true
  | _ => false

def FV.finite : FV → Bool
  | .fin _ _ _ => true
  | _ => false

def FV.isZero : FV → Bool
  | .fin _ 0 _ => true
  | _ => false

def FV.isNeg : FV → Bool
  | .inf s => s
  | .fin s _ _ => s
  | .nan => false

/-- A non-zero finite value's quotient to `p` bits or more, its lowest bit set when it is inexact, so
that one later rounding is right. -/
def divMag (p m1 : Nat) (e1 : Int) (m2 : Nat) (e2 : Int) : Nat × Int :=
  let k := p + m2.log2 + 2
  let n := m1 * 2 ^ k
  (2 * (n / m2) + (if n % m2 = 0 then 0 else 1), e1 - e2 - k - 1)

/-- Quotient, for a divisor that is not zero (a zero divisor is the caller's case). -/
def FV.div (p : Nat) : FV → FV → FV
  | .nan, _ => .nan
  | _, .nan => .nan
  | .inf _, .inf _ => .nan
  | .inf a, .fin s _ _ => .inf (a != s)
  | .fin s _ _, .inf b => .fin (s != b) 0 0
  | .fin s1 m1 e1, .fin s2 m2 e2 =>
    let r := divMag p m1 e1 m2 e2
    .fin (s1 != s2) r.1 r.2

/-- The integer square root, one result bit a round, from the top. -/
def isqrtGo : Nat → Nat → Nat → Nat
  | 0, _, r => r
  | b + 1, n, r =>
    let c := r + 2 ^ b
    if c * c ≤ n then isqrtGo b n c else isqrtGo b n r

def isqrt (n : Nat) : Nat := isqrtGo (n.log2 / 2 + 1) n 0

/-- A non-negative value's square root to `p` bits or more, its lowest bit set when it is inexact. -/
def sqrtMag (p m : Nat) (e : Int) : Nat × Int :=
  let k0 := 2 * p + 2
  let k := if (e - k0) % 2 = 0 then k0 else k0 + 1
  let n := m * 2 ^ k
  let r := isqrt n
  (2 * r + (if r * r = n then 0 else 1), (e - k) / 2 - 1)

/-- Square root of a value that is not negative (a negative one is the caller's case). -/
def FV.sqrt (p : Nat) : FV → FV
  | .nan => .nan
  | .inf s => if s then .nan else .inf false
  | .fin s m e => if m = 0 then .fin s 0 0 else let r := sqrtMag p m e; .fin s r.1 r.2

/-- IEEE 754 minimumNumber and maximumNumber: a NaN yields to a number, and -0 is below +0. -/
def FV.minNum (a b : FV) : FV :=
  match a.isNaN, b.isNaN with
  | true, _ => b
  | _, true => a
  | _, _ => match a.cmp b with
    | some .lt => a
    | some .gt => b
    | _ => if a.isNeg then a else b

def FV.maxNum (a b : FV) : FV :=
  match a.isNaN, b.isNaN with
  | true, _ => b
  | _, true => a
  | _, _ => match a.cmp b with
    | some .gt => a
    | some .lt => b
    | _ => if a.isNeg then b else a

/-- One FP32 sum, product and fused product-sum, on codes. -/
def f32Add (a b : Nat) : Nat := fenc fmtF32 ((fdec fmtF32 a).add (fdec fmtF32 b))
def f32Mul (a b : Nat) : Nat := fenc fmtF32 ((fdec fmtF32 a).mul (fdec fmtF32 b))

def addIn (f : FFmt) (a b : Nat) : Nat := fenc f ((fdec f a).add (fdec f b))
def mulIn (f : FFmt) (a b : Nat) : Nat := fenc f ((fdec f a).mul (fdec f b))
def fmaIn (f : FFmt) (a b c : Nat) : Nat := fenc f (((fdec f a).mul (fdec f b)).add (fdec f c))

/-- One level of a pairwise tree. -/
def pairUp (op : Nat → Nat → Nat) : List Nat → List Nat
  | a :: b :: t => op a b :: pairUp op t
  | l => l

/-- A fixed pairwise tree over `2 ^ d` values: indices 2i and 2i + 1 first, then upwards. -/
def treeSum (op : Nat → Nat → Nat) : Nat → List Nat → Nat
  | 0, l => l.headD 0
  | d + 1, l => treeSum op d (pairUp op l)

/-- Change of format: widening is exact, FP64 to FP32 and INT32 to FP32 round to even (R185). -/
def f32OfInt (i : Int) : Nat := fenc fmtF32 (ofInt i)

end Sys2Proof.Machine
end

