-- ==== Sys2Proof/Machine/Approx.lean ====
section
/-!
DEFINITION. Functions that the spec bounds in units in the last place and does not fix further (R164,
R217): the nearest FP32 code, moved by a free number of places within the bound, and the twiddle
factors of the FFT (R219).
-/
namespace Sys2Proof.Machine

/-- The fixed-point unit of the series: 2 to this power is 1. -/
def fxBits : Nat := 160
def fxOne : Nat := 2 ^ fxBits
/-- ln 2, log2 e and pi / 2, times 2^160. -/
def fxLn2 : Nat := 1013035739299659071135698605846798551586536899366
def fxLog2e : Nat := 2108501164428393954197770173035669514763056903505
def fxHalfPi : Nat := 2295721403524109460692402599871655564227077512209

/-- sum of x^i / i! from term `i` on, where `t` is the term before. -/
def expSeries (x : Nat) : Nat → Nat → Nat → Nat
  | 0, _, _ => 0
  | f + 1, i, t => let t' := t * x / fxOne / i; t' + expSeries x f (i + 1) t'

/-- 2 to a fraction below 1, in fixed point. -/
def exp2Frac (fr : Nat) : Nat := fxOne + expSeries (fr * fxLn2 / fxOne) 40 1 fxOne

/-- 2 to a fixed-point power: the whole part becomes the exponent. -/
def exp2Fix (neg : Bool) (mag : Nat) : FV :=
  let x : Int := if neg then -(mag : Int) else mag
  let whole := x / (fxOne : Int)
  .fin false (exp2Frac (x % (fxOne : Int)).toNat) (whole - fxBits)

/-- |v| in fixed point, cut at 2^20. -/
def fixOf (m : Nat) (e : Int) : Nat :=
  let s := e + fxBits
  min (2 ^ 20 * fxOne) (if 0 ≤ s then (if 200 ≤ e then 2 ^ 20 * fxOne * (if m = 0 then 0 else 1) else m * 2 ^ s.toNat) else m / 2 ^ (-s).toNat)

/-- 2^v and e^v to far more than FP32 precision. -/
def exp2V : FV → FV
  | .nan => .nan
  | .inf neg => if neg then .fin false 0 0 else .inf false
  | .fin neg m e => exp2Fix neg (fixOf m e)

def expV : FV → FV
  | .nan => .nan
  | .inf neg => if neg then .fin false 0 0 else .inf false
  | .fin neg m e => exp2Fix neg (fixOf m e * fxLog2e / fxOne)

/-- The logistic function 1 / (1 + e^-v). -/
def sigmoidV (v : FV) : FV := FV.div 60 (ofInt 1) ((ofInt 1).add (expV v.neg))

/-- Bits of log2 of a mantissa in [1, 2), by squaring. -/
def log2Bits : Nat → Nat → Nat
  | 0, _ => 0
  | f + 1, x =>
    let y := x * x / fxOne
    if 2 * fxOne ≤ y then 2 ^ f + log2Bits f (y / 2) else log2Bits f y

/-- log2 of a positive finite value. -/
def log2Pos (m : Nat) (e : Int) : FV :=
  let x := m * fxOne / 2 ^ m.log2
  let v : Int := ((m.log2 : Int) + e) * (2 : Int) ^ 120 + (log2Bits 120 x : Nat)
  .fin (decide (v < 0)) v.natAbs (-120)

/-- The magnitude code of `m * 2 ^ e` in FP32, rounded towards zero, or away from it. -/
def magCut (up : Bool) (m : Nat) (e : Int) : Nat :=
  if m = 0 then 0
  else
    let q := max (-149 : Int) ((m.log2 : Int) + e - 23)
    let k := (q - e).toNat
    let n := if q ≤ e then m * 2 ^ (e - q).toNat else if up then (m + 2 ^ k - 1) / 2 ^ k else m / 2 ^ k
    (q + 149).toNat * 2 ^ 23 + n

/-- The place of a finite value in the order of FP32 codes, zero at 0: of the next code at or above it, or at or below. -/
def codePlace (up : Bool) : FV → Int
  | .fin neg m e => if neg then -(magCut (!up) m e : Int) else magCut up m e
  | _ => 0

/-- The code at a place. -/
def codeAt (x : Int) : Nat := if x < 0 then 2 ^ 31 + x.natAbs else x.toNat

/-- A unit in the last place of a value of `m * 2 ^ e` in FP32, `n` times. -/
def ulps (n m : Nat) (e : Int) : FV := .fin false n (max (-149) ((m.log2 : Int) + e - 23))

/-- A finite code within `bound` units in the last place of a value, by a free choice among all of them. A NaN stands, and
so does an infinity, which a value beyond the range rounds to. What lies far below the least code counts as
just above zero. (DESIGN CHOICE, log 17) -/
def within (bound : Nat) (v : FV) (choice : Nat) : Nat :=
  match v with
  | .fin neg m0 e0 =>
    let far := decide (m0 ≠ 0 ∧ (m0.log2 : Int) + e0 < -200)
    let m := if far then 1 else m0
    let e := if far then -200 else e0
    let near := fenc fmtF32 (.fin neg m e)
    if near % 2 ^ 31 = 0x7F800000 then near
    else
      let lo := max (-0x7F7FFFFF) (codePlace true ((FV.fin neg m e).add (ulps bound m e).neg))
      let hi := min 0x7F7FFFFF (codePlace false ((FV.fin neg m e).add (ulps bound m e)))
      codeAt (lo + (choice % ((hi - lo).toNat + 1) : Nat))
  | _ => fenc fmtF32 v

/-- A free code of a format: its one NaN is the canonical one (R183). (DESIGN CHOICE, log 17) -/
def freeCode (f : FFmt) (choice : Nat) : Nat := fenc f (fdec f (choice % 2 ^ f.width))

/-- The same for a function of `x`, exact where `x` is not finite (R183). (DESIGN CHOICE, log 17) -/
def withinOf (bound : Nat) (x v : FV) (choice : Nat) : Nat := if x.finite then within bound v choice else fenc fmtF32 v

/-- A quotient; for a finite dividend and a zero divisor the spec states none, and a free code stands.
(DESIGN CHOICE, log 17) -/
def f32Div (a b choice : Nat) : Nat :=
  if (fdec fmtF32 b).isZero && (fdec fmtF32 a).finite then freeCode fmtF32 choice else fenc fmtF32 (FV.div 60 (fdec fmtF32 a) (fdec fmtF32 b))

/-- The Taylor sums of sine and cosine: signs alternate from `i` on, two powers a term. -/
def trigSeries (x2 : Nat) : Nat → Nat → Nat → Bool → Int
  | 0, _, _, _ => 0
  | f + 1, i, t, neg =>
    let t' := t * x2 / fxOne / (i * (i + 1))
    (if neg then -(t' : Int) else t') + trigSeries x2 f (i + 2) t' (!neg)

def cosFix (x : Nat) : Int := fxOne + trigSeries (x * x / fxOne) 30 1 fxOne true
def sinFix (x : Nat) : Int := x + trigSeries (x * x / fxOne) 30 2 x true

/-- The negative of a value, a zero staying +0. -/
def negZ (v : FV) : FV := if v.isZero then v else v.neg

/-- cos and sin of 2 pi k / n for n a multiple of 4, by quadrants. -/
def turn (k n : Nat) : FV × FV :=
  let q := 4 * (k % n) / n
  let r := 4 * (k % n) % n
  let x := fxHalfPi * r / n
  let c : FV := if r = 0 then ofInt 1 else (let v := cosFix x; .fin (decide (v < 0)) v.natAbs (-(fxBits : Int)))
  let sn : FV := if r = 0 then ofInt 0 else (let v := sinFix x; .fin (decide (v < 0)) v.natAbs (-(fxBits : Int)))
  match q with
  | 0 => (c, sn)
  | 1 => (negZ sn, c)
  | 2 => (negZ c, negZ sn)
  | _ => (sn, negZ c)

end Sys2Proof.Machine
end

