-- ==== Sys2Proof/Config.lean ====
section
/-!
DEFINITION. What the spec leaves open: constants without a body, so that nothing proved of the model
rests on a value the spec does not give. A function of operands is asked with them; `freeNat` is asked
with the model's own count `State.fresh`, which rises with each use.
-/
namespace Sys2Proof.Config

/-- A value the spec leaves open, fresh at each use. -/
opaque freeNat : Nat → Nat

/-- How the FFT engine orders and rounds its butterflies, among the ways that R219 allows.
(DESIGN CHOICE, log 19) -/
opaque fftWay : Nat

/-- How an ALLREDUCE of so many elements is cut into segments: the elements of segment `i`, and which half an odd
element goes to (R381). (DESIGN CHOICE, log 73) -/
opaque segCut (elements i : Nat) : Nat

/-- The hash of source and destination address that chooses the link of a flow in breakout (R354).
(DESIGN CHOICE, log 68) -/
opaque linkHash (src dst : Nat) : Nat

/-- The bytes over which R369 takes the digest of a job: JOBID, the member bitmap, TP_US, the three PACE_ORIGIN
registers and BTO, in a layout that the spec does not give.
(DESIGN CHOICE, log 73) -/
opaque digestBytes (jobid members tp ns secLo secHi bto : Nat) : List Nat

/-! ### Cryptography. The spec names the algorithms (AES-256-GCM, SHAKE256, ML-KEM-1024, Falcon-1024 and the
rest) and leaves them to their own standards; here each is an unknown function of its operands. -/

/-- AES-256-GCM decryption of a 4 KiB block with its tag; `none` where the tag fails (R426, R428).
(DESIGN CHOICE, log 7) -/
opaque gcmOpen (key nonce : Nat) (aad ct : List Nat) (tag : Nat) : Option (List Nat)
/-- The ciphertext that AES-256-GCM makes of a plaintext. (DESIGN CHOICE, log 7) -/
opaque gcmSeal (key nonce : Nat) (aad pt : List Nat) : List Nat

/-- SHAKE256 with an output of so many bytes, as a little-endian number.
(DESIGN CHOICE, log 7) -/
opaque shake256 (outBytes : Nat) (msg : List Nat) : Nat

/-- Whether a Falcon-1024 signature of a message verifies under a public key (R395).
(DESIGN CHOICE, log 7) -/
opaque falconVerify (key msg sig : List Nat) : Bool

/-- Whether such a signature verifies under the public key that has a digest (R415).
(DESIGN CHOICE, log 7) -/
opaque falconVerifyDigest (digest : Nat) (msg sig : List Nat) : Bool

/-- The bytes of the self-signed certificate of a public key that carries a serial number, and SHA3-512 (R421).
(DESIGN CHOICE, log 7) -/
opaque certificate (key serial : List Nat) : List Nat
/-- The same kind of function.
(DESIGN CHOICE, log 7) -/
opaque sha3 (msg : List Nat) : Nat

/-- What a CHALLENGE, a measurement or a key exchange signs over: the transcript of DSP0274.
(DESIGN CHOICE, log 7) -/
opaque transcript (kind : Nat) (path nonce : Nat) : List Nat

/-- The Falcon-1024 public key of a seed, and its signature of a message in padded format (R417, R418).
(DESIGN CHOICE, log 7) -/
opaque falconPublic (seed : Nat) : List Nat
/-- The same kind of function.
(DESIGN CHOICE, log 7) -/
opaque falconSign (seed : Nat) (msg : List Nat) : List Nat

/-- The ML-KEM-1024 public key of a seed, and the shared secret that it decapsulates (R417, R427).
(DESIGN CHOICE, log 7) -/
opaque kemPublic (seed : Nat) : List Nat
/-- The same kind of function.
(DESIGN CHOICE, log 7) -/
opaque kemDecap (seed : Nat) (ct : List Nat) : List Nat

/-- The UUID of the management endpoint, by the serial number, and the records of its PLDM repository, fixed for the
variant, by their handles (R478, R480).
(PRESUMED, log 91) -/
opaque uuid (serial : List Nat) : List Nat
/-- The same kind of function.
(PRESUMED, log 91) -/
opaque pdr (variant handle : Nat) : List Nat

end Sys2Proof.Config
end

