-- ==== Sys2Proof/Machine/RegMap.lean ====
section
/-!
DEFINITION. The CFG registers of the device: for each register of the spec's register maps its offset,
its fields, their access types (Table SC-7) and the value each holds at reset (R12); and for each field a
name by which the meanings read and write it. Offsets are CFG offsets of Table DO-7.
-/
namespace Sys2Proof.Machine

/-- The access types of Table SC-7. -/
inductive Access where
  | ro | rw | wo | w1c | w1s | rc
deriving DecidableEq, Repr

/-- A field of a register: its lowest bit, its width, its access type and its reset value. -/
structure RegField where
  lo : Nat
  width : Nat
  acc : Access
  reset : Nat
deriving DecidableEq, Repr

/-- A register, or an array of like registers: `dims` gives stride and count, outermost first. -/
structure RegDesc where
  base : Nat
  dims : List (Nat × Nat)
  fields : List RegField
deriving DecidableEq, Repr

/-- The place of one field: the CFG offset of its register, its lowest bit and its width. -/
structure Fld where
  off : Nat
  lo : Nat
  width : Nat
deriving DecidableEq, Repr

/-- CFG offset of the common block of Team `t` (Table DO-7). -/
def teamBase (t : Nat) : Nat := 0x1000000 + t * 0x400000
/-- CFG offset of physical core slot `k`, counted 9 to a Team (Table DO-7). -/
def slotBase (k : Nat) : Nat := 0x1040000 + (k / 9) * 0x400000 + (k % 9) * 0x40000


/-! Fields of the registers of Table SC-2. -/
def F.GLB_IDENT_PART : Fld := ⟨0x0, 16, 16⟩
def F.GLB_IDENT_VARIANT : Fld := ⟨0x0, 8, 8⟩
def F.GLB_IDENT_STEP_MAJOR : Fld := ⟨0x0, 4, 4⟩
def F.GLB_IDENT_STEP_MINOR : Fld := ⟨0x0, 0, 4⟩

/-! Fields of the registers of Table SC-3. -/
def F.GLB_CAP_COMPUTE_FFT_PRESENT : Fld := ⟨0x4, 16, 8⟩
def F.GLB_CAP_COMPUTE_EDGE_PRESENT : Fld := ⟨0x4, 8, 8⟩
def F.GLB_CAP_COMPUTE_TEAM_PRESENT : Fld := ⟨0x4, 0, 8⟩

/-! Fields of the registers of Table SC-4. -/
def F.GLB_CAP_VIDEO_DEC_PRESENT : Fld := ⟨0x8, 16, 16⟩
def F.GLB_CAP_VIDEO_RAWPORT_PRESENT : Fld := ⟨0x8, 8, 8⟩
def F.GLB_CAP_VIDEO_ISP_PRESENT : Fld := ⟨0x8, 6, 2⟩
def F.GLB_CAP_VIDEO_ENC_PRESENT : Fld := ⟨0x8, 4, 2⟩
def F.GLB_CAP_VIDEO_JPEG_PRESENT : Fld := ⟨0x8, 3, 1⟩

/-! Fields of the registers of Table SC-5. -/
def F.GLB_CAP_IO_HOSTCORE_COUNT : Fld := ⟨0xC, 8, 8⟩
def F.GLB_CAP_IO_FAB_PORT_PRESENT : Fld := ⟨0xC, 0, 2⟩

/-! Fields of the registers of Table PT-4. -/
def F.PACE_CTRL_PTP_DOMAIN : Fld := ⟨0x10000, 8, 8⟩
def F.PACE_CTRL_PACE_OUT_EN : Fld := ⟨0x10000, 7, 1⟩
def F.PACE_CTRL_PTP_DELAY : Fld := ⟨0x10000, 6, 1⟩
def F.PACE_CTRL_PTP_PORT : Fld := ⟨0x10000, 4, 2⟩
def F.PACE_CTRL_SOURCE : Fld := ⟨0x10000, 2, 2⟩
def F.PACE_CTRL_JOB_LOCK : Fld := ⟨0x10000, 1, 1⟩
def F.PACE_CTRL_ENABLE : Fld := ⟨0x10000, 0, 1⟩

/-! Fields of the registers of Table PT-5. -/
def F.PACE_STATUS_WRITE_REJECT : Fld := ⟨0x10008, 15, 1⟩
def F.PACE_STATUS_STEP_REQUIRED : Fld := ⟨0x10008, 14, 1⟩
def F.PACE_STATUS_PACE_IN_LOST : Fld := ⟨0x10008, 13, 1⟩
def F.PACE_STATUS_PTP_LOST : Fld := ⟨0x10008, 12, 1⟩
def F.PACE_STATUS_ACTIVE_PORT : Fld := ⟨0x10008, 8, 2⟩
def F.PACE_STATUS_ALIGNED : Fld := ⟨0x10008, 3, 1⟩
def F.PACE_STATUS_SYNC_STATE : Fld := ⟨0x10008, 0, 3⟩

/-! Fields of the registers of Table PT-6. -/
def F.PACE_PERIOD_TP_US : Fld := ⟨0x10004, 0, 17⟩
def F.PACE_TICK_LO_TICK : Fld := ⟨0x10010, 0, 32⟩
def F.PACE_TICK_HI_TICK : Fld := ⟨0x10014, 0, 32⟩
def F.PACE_BUDGET_B : Fld := ⟨0x10018, 0, 27⟩
def F.PACE_ORIGIN_NS_NS : Fld := ⟨0x10020, 0, 30⟩
def F.PACE_ORIGIN_SEC_LO_SEC : Fld := ⟨0x10024, 0, 32⟩
def F.PACE_ORIGIN_SEC_HI_SEC : Fld := ⟨0x10028, 0, 16⟩
def F.PACE_OFFSET_OFFSET : Fld := ⟨0x10030, 0, 32⟩
def F.PACE_HOLDOVER_HOLD_MS : Fld := ⟨0x10034, 0, 16⟩
def F.PACE_IN_DELAY_DELAY_NS : Fld := ⟨0x10038, 0, 12⟩
def F.PACE_OVR_COUNT_COUNT : Fld := ⟨0x10040, 0, 32⟩
def F.PACE_OVR_LAST_TICK : Fld := ⟨0x10044, 0, 32⟩
def F.PACE_OVR_MAX_CYCLES : Fld := ⟨0x10048, 0, 32⟩
def F.PACE_OVR_CORE_LO_CORE : Fld := ⟨0x10050, 0, 32⟩
def F.PACE_OVR_CORE_HI_CORE : Fld := ⟨0x10054, 0, 32⟩
def F.PACE_TMR_DL_LO_DL (i : Nat) : Fld := ⟨0x10100 + 16 * i, 0, 32⟩
def F.PACE_TMR_DL_HI_DL (i : Nat) : Fld := ⟨0x10104 + 16 * i, 0, 32⟩
def F.PACE_TMR_CTRL_FIRED (i : Nat) : Fld := ⟨0x10108 + 16 * i, 1, 1⟩
def F.PACE_TMR_CTRL_ARM (i : Nat) : Fld := ⟨0x10108 + 16 * i, 0, 1⟩

/-! Fields of the registers of Table TC-4. -/
def F.TEAM_STATUS_SLOT_IDLE (t : Nat) : Fld := ⟨teamBase t + 0x0, 16, 9⟩
def F.TEAM_STATUS_SLOT_ACTIVE (t : Nat) : Fld := ⟨teamBase t + 0x0, 0, 9⟩

/-! Fields of the registers of Table TC-5. -/
def F.TEAM_PWR_CTRL_IDLE_TICKS (t : Nat) : Fld := ⟨teamBase t + 0x10, 8, 8⟩
def F.TEAM_PWR_CTRL_MODE (t : Nat) : Fld := ⟨teamBase t + 0x10, 0, 2⟩

/-! Fields of the registers of Table TC-6. -/
def F.TEAM_PWR_STATUS_STATE (t : Nat) : Fld := ⟨teamBase t + 0x14, 0, 2⟩

/-! Fields of the registers of Table TC-7. -/
def F.CORE_STATUS_LOGICAL (k : Nat) : Fld := ⟨slotBase k + 0x0, 24, 8⟩
def F.CORE_STATUS_ACC_ALLOC (k : Nat) : Fld := ⟨slotBase k + 0x0, 8, 8⟩
def F.CORE_STATUS_CLK_GATED (k : Nat) : Fld := ⟨slotBase k + 0x0, 3, 1⟩
def F.CORE_STATUS_MX_BUSY (k : Nat) : Fld := ⟨slotBase k + 0x0, 2, 1⟩
def F.CORE_STATUS_FAULTED (k : Nat) : Fld := ⟨slotBase k + 0x0, 1, 1⟩
def F.CORE_STATUS_RUNNING (k : Nat) : Fld := ⟨slotBase k + 0x0, 0, 1⟩

/-! Fields of the registers of Table TC-8. -/
def F.TEAM_WAKE_COUNT_COUNT (t : Nat) : Fld := ⟨teamBase t + 0x18, 0, 32⟩
def F.EF_QUEUE_STATUS_FQ_FREE (t : Nat) : Fld := ⟨teamBase t + 0x100, 16, 5⟩
def F.EF_QUEUE_STATUS_EQ_FREE (t : Nat) : Fld := ⟨teamBase t + 0x100, 0, 5⟩
def F.MX_ACTIVE_CYC_CYCLES (k : Nat) : Fld := ⟨slotBase k + 0x40, 0, 32⟩
def F.MX_VALID_SLOTS_SLOTS (k : Nat) : Fld := ⟨slotBase k + 0x44, 0, 32⟩
def F.MX_BUBBLE_WEIGHT_SLOTS (k : Nat) : Fld := ⟨slotBase k + 0x48, 0, 32⟩
def F.MX_BUBBLE_STARVE_SLOTS (k : Nat) : Fld := ⟨slotBase k + 0x4C, 0, 32⟩
def F.MX_BUBBLE_DRAIN_SLOTS (k : Nat) : Fld := ⟨slotBase k + 0x50, 0, 32⟩
def F.MX_BUBBLE_ALIGN_SLOTS (k : Nat) : Fld := ⟨slotBase k + 0x54, 0, 32⟩
def F.CR_SAT_COUNT_ELEMENTS (k : Nat) : Fld := ⟨slotBase k + 0x58, 0, 32⟩

/-! Fields of the registers of Table XM-15. -/
def F.DISP_PLOAD_ADDR_LO_ADDR : Fld := ⟨0x200040, 6, 26⟩
def F.DISP_PLOAD_ADDR_HI_ADDR : Fld := ⟨0x200044, 0, 3⟩
def F.DISP_PLOAD_CMD_OP : Fld := ⟨0x200048, 30, 2⟩
def F.DISP_PLOAD_CMD_PART : Fld := ⟨0x200048, 0, 3⟩
def F.DISP_PLOAD_STATUS_STATE : Fld := ⟨0x20004C, 30, 2⟩
def F.DISP_PLOAD_STATUS_PART : Fld := ⟨0x20004C, 9, 3⟩
def F.DISP_PLOAD_STATUS_WRITE_REJECT : Fld := ⟨0x20004C, 8, 1⟩
def F.DISP_PLOAD_STATUS_REASON : Fld := ⟨0x20004C, 0, 8⟩

/-! Fields of the registers of Table VK-8. -/
def F.VEC_CTRL_CHECK_EN (k : Nat) : Fld := ⟨slotBase k + 0x80, 0, 1⟩
def F.VEC_STATUS_RUNNING (k : Nat) : Fld := ⟨slotBase k + 0x84, 3, 1⟩
def F.VEC_STATUS_HELD (k : Nat) : Fld := ⟨slotBase k + 0x84, 2, 1⟩
def F.VEC_STATUS_UNIT_BUSY (k : Nat) : Fld := ⟨slotBase k + 0x84, 1, 1⟩
def F.VEC_STATUS_COLLIDE (k : Nat) : Fld := ⟨slotBase k + 0x84, 0, 1⟩
def F.VEC_BUNDLES_COUNT (k : Nat) : Fld := ⟨slotBase k + 0x88, 0, 32⟩
def F.VEC_HELD_CYC_CYCLES (k : Nat) : Fld := ⟨slotBase k + 0x8C, 0, 32⟩
def F.VEC_WIN_CYC_CYCLES (k : Nat) : Fld := ⟨slotBase k + 0x90, 0, 32⟩

/-! Fields of the registers of Table AK-8. -/
def F.KVA_CTL_BASE_LO_ADDR (p : Nat) : Fld := ⟨0x3C0000 + 0x100 * p, 12, 20⟩
def F.KVA_CTL_BASE_HI_ADDR (p : Nat) : Fld := ⟨0x3C0004 + 0x100 * p, 0, 3⟩
def F.KVA_CTX_RANGE_COUNT (p : Nat) : Fld := ⟨0x3C0008 + 0x100 * p, 16, 13⟩
def F.KVA_CTX_RANGE_FIRST (p : Nat) : Fld := ⟨0x3C0008 + 0x100 * p, 0, 12⟩
def F.KVA_ARENA_OBJ (p : Nat) : Fld := ⟨0x3C000C + 0x100 * p, 0, 16⟩
def F.KVA_CMD_OP (p : Nat) : Fld := ⟨0x3C0010 + 0x100 * p, 30, 2⟩
def F.KVA_CMD_CTX (p : Nat) : Fld := ⟨0x3C0010 + 0x100 * p, 0, 12⟩
def F.KVA_FREE_PUSH_SZ (p : Nat) : Fld := ⟨0x3C0014 + 0x100 * p, 28, 4⟩
def F.KVA_FREE_PUSH_FRAME (p : Nat) : Fld := ⟨0x3C0014 + 0x100 * p, 0, 28⟩
def F.KVA_STATUS_EXHAUST (p : Nat) : Fld := ⟨0x3C0018 + 0x100 * p, 2, 1⟩
def F.KVA_STATUS_PUSH_REJECT (p : Nat) : Fld := ⟨0x3C0018 + 0x100 * p, 1, 1⟩
def F.KVA_STATUS_CMD_REJECT (p : Nat) : Fld := ⟨0x3C0018 + 0x100 * p, 0, 1⟩
def F.KVA_REFUSED_TOKENS (p : Nat) : Fld := ⟨0x3C001C + 0x100 * p, 0, 32⟩
def F.KVA_RING_PAGES (p : Nat) : Fld := ⟨0x3C0020 + 0x100 * p, 0, 32⟩
def F.KVA_HELD_PAGES (p : Nat) : Fld := ⟨0x3C0024 + 0x100 * p, 0, 20⟩
def F.KVA_FREE_CNT_COUNT (p i : Nat) : Fld := ⟨0x3C0040 + 0x100 * p + 4 * i, 0, 20⟩

/-! Fields of the registers of Table MS-5. -/
def F.CS_CTRL_SAMEROW_EVT (k : Nat) : Fld := ⟨slotBase k + 0xC0, 0, 1⟩
def F.CS_CONFLICT_COUNT (k : Nat) : Fld := ⟨slotBase k + 0xC4, 0, 32⟩
def F.CS_SAMEROW_COUNT (k : Nat) : Fld := ⟨slotBase k + 0xC8, 0, 32⟩
def F.NOC_IN_CYC_CYCLES (k : Nat) : Fld := ⟨slotBase k + 0xCC, 0, 32⟩
def F.SEM_COUNT (k i : Nat) : Fld := ⟨slotBase k + 0x800 + 4 * i, 0, 16⟩

/-! Fields of the registers of Table MS-6. -/
def F.TALLY_ARG0_EPOCH (t : Nat) : Fld := ⟨teamBase t + 0x200, 0, 32⟩
def F.TALLY_ARG1_VALUE (t : Nat) : Fld := ⟨teamBase t + 0x204, 0, 32⟩
def F.TALLY_CMD_OP (t : Nat) : Fld := ⟨teamBase t + 0x208, 30, 2⟩
def F.TALLY_CMD_COUNTER (t : Nat) : Fld := ⟨teamBase t + 0x208, 0, 8⟩
def F.TALLY_STATUS_CMD_REJECT (t : Nat) : Fld := ⟨teamBase t + 0x20C, 8, 1⟩
def F.TALLY_STATUS_QUEUED (t : Nat) : Fld := ⟨teamBase t + 0x20C, 0, 7⟩
def F.TALLY_DUP_COUNT_COUNT (t : Nat) : Fld := ⟨teamBase t + 0x210, 0, 32⟩
def F.TALLY_EPOCH_EPOCH (t i : Nat) : Fld := ⟨teamBase t + 0x1000 + 16 * i, 0, 32⟩
def F.TALLY_LIMIT_LIMIT (t i : Nat) : Fld := ⟨teamBase t + 0x1004 + 16 * i, 0, 32⟩
def F.TALLY_NEXT_NEXT (t i : Nat) : Fld := ⟨teamBase t + 0x1008 + 16 * i, 0, 32⟩
def F.TALLY_HWM_HWM (t i : Nat) : Fld := ⟨teamBase t + 0x100C + 16 * i, 0, 32⟩

/-! Fields of the registers of Table MS-7. -/
def F.STAB_CTRL_MIG_PCT : Fld := ⟨0x300000, 8, 3⟩
def F.STAB_CTRL_DECAY : Fld := ⟨0x300000, 4, 4⟩
def F.STAB_CTRL_MIGRATE : Fld := ⟨0x300000, 0, 1⟩
def F.STAB_THRESH_PROMOTE_D : Fld := ⟨0x300004, 16, 16⟩
def F.STAB_THRESH_DEMOTE_D : Fld := ⟨0x300004, 0, 16⟩
def F.STAB_CMD_ARG0_FIRST : Fld := ⟨0x300010, 0, 16⟩
def F.STAB_CMD_ARG1_COUNT : Fld := ⟨0x300014, 0, 17⟩
def F.STAB_CMD_OP : Fld := ⟨0x300018, 29, 3⟩
def F.STAB_CMD_PART : Fld := ⟨0x300018, 0, 3⟩
def F.STAB_RESULT_STATE : Fld := ⟨0x30001C, 30, 2⟩
def F.STAB_RESULT_REASON : Fld := ⟨0x30001C, 0, 8⟩
def F.STAB_STATUS_LOST_PRESENT : Fld := ⟨0x300020, 1, 1⟩
def F.STAB_STATUS_CMD_REJECT : Fld := ⟨0x300020, 0, 1⟩
def F.STAB_MIG_BUDGET_BYTES : Fld := ⟨0x300030, 0, 32⟩
def F.STAB_MIG_USED_BYTES : Fld := ⟨0x300034, 0, 32⟩
def F.STAB_PROMOTIONS_COUNT : Fld := ⟨0x300038, 0, 32⟩
def F.STAB_DEMOTIONS_COUNT : Fld := ⟨0x30003C, 0, 32⟩
def F.STAB_LOST_SEGS_COUNT : Fld := ⟨0x300040, 0, 32⟩
def F.STAB_QUERY_PART : Fld := ⟨0x300050, 16, 3⟩
def F.STAB_QUERY_ID : Fld := ⟨0x300050, 0, 16⟩
def F.STAB_QHEAT_H : Fld := ⟨0x300054, 0, 32⟩
def F.STAB_QLOC_POOL_SEGS : Fld := ⟨0x300058, 16, 16⟩
def F.STAB_QLOC_LOST : Fld := ⟨0x300058, 1, 1⟩
def F.STAB_QLOC_LOADED : Fld := ⟨0x300058, 0, 1⟩

/-! Fields of the registers of Table MS-8. -/
def F.STAB_P_OBJ_BASE_LO_ADDR (p : Nat) : Fld := ⟨0x380000 + 0x100 * p, 5, 27⟩
def F.STAB_P_OBJ_BASE_HI_ADDR (p : Nat) : Fld := ⟨0x380004 + 0x100 * p, 0, 3⟩
def F.STAB_P_OBJ_COUNT_COUNT (p : Nat) : Fld := ⟨0x380008 + 0x100 * p, 0, 17⟩
def F.STAB_P_ARENA_BASE_MIB (p : Nat) : Fld := ⟨0x38000C + 0x100 * p, 0, 16⟩
def F.STAB_P_ARENA_SIZE_MIB (p : Nat) : Fld := ⟨0x380010 + 0x100 * p, 0, 16⟩
def F.STAB_P_POOL_SHARE_UNITS (p : Nat) : Fld := ⟨0x380014 + 0x100 * p, 0, 15⟩
def F.STAB_P_POOL_USED_UNITS (p : Nat) : Fld := ⟨0x380018 + 0x100 * p, 0, 15⟩
def F.STAB_P_ARENA_USED_UNITS (p : Nat) : Fld := ⟨0x38001C + 0x100 * p, 0, 20⟩

/-! Fields of the registers of Table MS-9. -/
def F.POOL_SLICE_STATE_SLICE_s (j : Nat) : Fld := ⟨0x400000, 4 * j, 4⟩
def F.POOL_ADD_LINES_COUNT : Fld := ⟨0x400010, 0, 32⟩
def F.POOL_CONFLICT_COUNT : Fld := ⟨0x400014, 0, 32⟩
def F.GDDR_STATUS_CAPACITY : Fld := ⟨0x500000, 8, 2⟩
def F.GDDR_STATUS_TRAIN : Fld := ⟨0x500000, 0, 3⟩
def F.GDDR_CH_STATE_CH_c (j : Nat) : Fld := ⟨0x500004, 2 * j, 2⟩
def F.GDDR_RETRAIN_PERIOD_MS : Fld := ⟨0x500008, 0, 10⟩
def F.GDDR_SCRUB_HOURS : Fld := ⟨0x50000C, 0, 8⟩
def F.GDDR_CE_COUNT : Fld := ⟨0x500010, 0, 32⟩
def F.GDDR_UE_COUNT : Fld := ⟨0x500014, 0, 32⟩
def F.GDDR_CRC_RETRY_COUNT : Fld := ⟨0x500018, 0, 32⟩
def F.GDDR_RETRAIN_COUNT_COUNT : Fld := ⟨0x50001C, 0, 32⟩
def F.GDDR_ERR_ADDR_LO_ADDR : Fld := ⟨0x500020, 6, 26⟩
def F.GDDR_ERR_ADDR_HI_ADDR : Fld := ⟨0x500024, 0, 3⟩

/-! Fields of the registers of Table VF-13. -/
def F.VIS_CTX_CMD_OP : Fld := ⟨0x700000, 30, 2⟩
def F.VIS_CTX_CMD_CTX : Fld := ⟨0x700000, 0, 12⟩
def F.VIS_CTX_RESULT_STATE : Fld := ⟨0x700004, 30, 2⟩
def F.VIS_CTX_RESULT_CTX : Fld := ⟨0x700004, 8, 12⟩
def F.VIS_CTX_RESULT_REASON : Fld := ⟨0x700004, 0, 8⟩
def F.VIS_STATUS_JPEG_DONE : Fld := ⟨0x700008, 2, 1⟩
def F.VIS_STATUS_CMD_REJECT : Fld := ⟨0x700008, 1, 1⟩
def F.VIS_STATUS_WRITE_REJECT : Fld := ⟨0x700008, 0, 1⟩
def F.VIS_FB_RELEASE_CTX : Fld := ⟨0x70000C, 6, 12⟩
def F.VIS_FB_RELEASE_FBIDX : Fld := ⟨0x70000C, 0, 6⟩
def F.VIS_INGEST_PORTS_HI : Fld := ⟨0x700010, 16, 16⟩
def F.VIS_INGEST_PORTS_LO : Fld := ⟨0x700010, 0, 16⟩
def F.VIS_JPEG_SUBMIT_LO_ADDR : Fld := ⟨0x700014, 5, 27⟩
def F.VIS_JPEG_SUBMIT_HI_ADDR : Fld := ⟨0x700018, 0, 3⟩
def F.VIS_UNMATCHED_COUNT : Fld := ⟨0x700020, 0, 32⟩
def F.VIS_PKT_DROP_COUNT : Fld := ⟨0x700024, 0, 32⟩
def F.RAW_CTRL_FORMAT (r : Nat) : Fld := ⟨0x701000 + 0x40 * r, 5, 3⟩
def F.RAW_CTRL_PCLK_EDGE (r : Nat) : Fld := ⟨0x701000 + 0x40 * r, 4, 1⟩
def F.RAW_CTRL_DE_POL (r : Nat) : Fld := ⟨0x701000 + 0x40 * r, 3, 1⟩
def F.RAW_CTRL_HS_POL (r : Nat) : Fld := ⟨0x701000 + 0x40 * r, 2, 1⟩
def F.RAW_CTRL_VS_POL (r : Nat) : Fld := ⟨0x701000 + 0x40 * r, 1, 1⟩
def F.RAW_CTRL_EN (r : Nat) : Fld := ⟨0x701000 + 0x40 * r, 0, 1⟩
def F.RAW_SIZE_HEIGHT (r : Nat) : Fld := ⟨0x701004 + 0x40 * r, 16, 14⟩
def F.RAW_SIZE_WIDTH (r : Nat) : Fld := ⟨0x701004 + 0x40 * r, 0, 14⟩
def F.RAW_PAD_PAD (r : Nat) : Fld := ⟨0x701008 + 0x40 * r, 0, 16⟩
def F.RAW_TIMEOUT_TIMEOUT_US (r : Nat) : Fld := ⟨0x70100C + 0x40 * r, 0, 16⟩
def F.RAW_ISP_COMMIT_COMMIT (r : Nat) : Fld := ⟨0x701010 + 0x40 * r, 0, 1⟩
def F.RAW_STATUS_COMMIT_PENDING (r : Nat) : Fld := ⟨0x701014 + 0x40 * r, 2, 1⟩
def F.RAW_STATUS_STATE (r : Nat) : Fld := ⟨0x701014 + 0x40 * r, 0, 2⟩
def F.RAW_FRAMES_COUNT (r : Nat) : Fld := ⟨0x701018 + 0x40 * r, 0, 32⟩
def F.RAW_STRAY_COUNT (r : Nat) : Fld := ⟨0x70101C + 0x40 * r, 0, 32⟩

/-! Fields of the registers of Table HQ-9. -/
def F.HQE_STATUS_DRT_READY : Fld := ⟨0x80000, 1, 1⟩
def F.HQE_STATUS_WRITE_REJECT : Fld := ⟨0x80000, 0, 1⟩
def F.HQE_APT_BASE_LO_ADDR : Fld := ⟨0x80008, 28, 4⟩
def F.HQE_APT_BASE_HI_ADDR : Fld := ⟨0x8000C, 0, 3⟩
def F.HQE_DESC_FREE_COUNT : Fld := ⟨0x80010, 0, 15⟩
def F.HQE_DB_IGNORED_COUNT : Fld := ⟨0x80014, 0, 32⟩
def F.HQE_VF_DENIED_COUNT : Fld := ⟨0x80018, 0, 32⟩
def F.HQE_VF_VALID (i : Nat) : Fld := ⟨0x80100 + 4 * i, 31, 1⟩
def F.HQE_VF_PART (i : Nat) : Fld := ⟨0x80100 + 4 * i, 24, 3⟩
def F.HQE_VF_RING_BASE (i : Nat) : Fld := ⟨0x80100 + 4 * i, 0, 14⟩
def F.DISP_CTRL_GPCT : Fld := ⟨0x200000, 0, 7⟩
def F.DISP_STATUS_G_OVERCOMMIT : Fld := ⟨0x200004, 1, 1⟩
def F.DISP_STATUS_G_REJECT : Fld := ⟨0x200004, 0, 1⟩
def F.DISP_ADMITTED_COUNT : Fld := ⟨0x200010, 0, 32⟩
def F.DISP_DEFERRED_COUNT : Fld := ⟨0x200014, 0, 32⟩
def F.DISP_REFUSED_COUNT : Fld := ⟨0x200018, 0, 32⟩
def F.DISP_FRAME_HELD_COUNT : Fld := ⟨0x20001C, 0, 32⟩
def F.DISP_P_HSHARE_G_CYCLES (i : Nat) : Fld := ⟨0x200100 + 16 * i, 0, 32⟩
def F.DISP_P_HSHARE_CYCLES (i : Nat) : Fld := ⟨0x200104 + 16 * i, 0, 32⟩

/-! Fields of the registers of Table HF-6. -/
def F.FAB_CTRL_ZCSUM_RX : Fld := ⟨0x600000, 3, 1⟩
def F.FAB_CTRL_INGEST_MOVE : Fld := ⟨0x600000, 2, 1⟩
def F.FAB_CTRL_ENCAP : Fld := ⟨0x600000, 0, 2⟩
def F.FAB_ID_ID : Fld := ⟨0x600004, 0, 6⟩
def F.FAB_ETYPE_UDPPORT : Fld := ⟨0x600008, 16, 16⟩
def F.FAB_ETYPE_ETYPE : Fld := ⟨0x600008, 0, 16⟩
def F.FAB_QOS_DSCP : Fld := ⟨0x60000C, 8, 6⟩
def F.FAB_QOS_PCP : Fld := ⟨0x60000C, 0, 3⟩
def F.FAB_TIMERS_RTO_US : Fld := ⟨0x600010, 16, 16⟩
def F.FAB_TIMERS_RETRY_MAX : Fld := ⟨0x600010, 0, 8⟩
def F.FAB_CREDITS_PER_PEER : Fld := ⟨0x600014, 0, 5⟩
def F.FAB_PORT_MODE (i : Nat) : Fld := ⟨0x600020 + 4 * i, 4, 2⟩
def F.FAB_PORT_STATE (i : Nat) : Fld := ⟨0x600020 + 4 * i, 0, 2⟩
def F.FAB_STATUS_CMD_REJECT : Fld := ⟨0x600030, 1, 1⟩
def F.FAB_STATUS_WRITE_REJECT : Fld := ⟨0x600030, 0, 1⟩
def F.FAB_JOB_ID_JOBID : Fld := ⟨0x600100, 0, 16⟩
def F.FAB_JOB_CFG_PART : Fld := ⟨0x600104, 24, 3⟩
def F.FAB_JOB_CFG_BTO : Fld := ⟨0x600104, 16, 8⟩
def F.FAB_JOB_CFG_RING : Fld := ⟨0x600104, 0, 14⟩
def F.FAB_JOB_CMD_OP : Fld := ⟨0x600110, 30, 2⟩
def F.FAB_JOB_STATE_LEADER : Fld := ⟨0x600114, 8, 6⟩
def F.FAB_JOB_STATE_DIGEST_MISMATCH : Fld := ⟨0x600114, 3, 1⟩
def F.FAB_JOB_STATE_STATE : Fld := ⟨0x600114, 0, 3⟩
def F.FAB_JOB_FREQ_ALLOWED : Fld := ⟨0x600118, 16, 12⟩
def F.FAB_JOB_FREQ_FJOB : Fld := ⟨0x600118, 0, 12⟩
def F.FAB_JOB_TP_TP_US : Fld := ⟨0x60011C, 0, 17⟩
def F.FAB_JOB_ARRIVE_TICK : Fld := ⟨0x600120, 0, 32⟩
def F.FAB_JOB_BAR_TICK_TICK : Fld := ⟨0x600124, 0, 32⟩
def F.FAB_COP_FREE_COUNT : Fld := ⟨0x600224, 0, 7⟩

/-! Fields of the registers of Table AS-13. -/
def F.HOSTCORE_MEM_CFG_L2_SIZE : Fld := ⟨0xA00000, 16, 4⟩
def F.HOSTCORE_MEM_CFG_L2_BASE : Fld := ⟨0xA00000, 0, 4⟩
def F.HOSTCORE_MEM_STATUS_BUSY : Fld := ⟨0xA00004, 1, 1⟩
def F.HOSTCORE_MEM_STATUS_WRITE_REJECT : Fld := ⟨0xA00004, 0, 1⟩
def F.HOSTCORE_L2_CMD_OP : Fld := ⟨0xA00008, 30, 2⟩
def F.HOSTCORE_CLU_CTRL_GATE_EN : Fld := ⟨0xA0000C, 0, 4⟩
def F.HOSTCORE_CLU_STATUS_FENCED : Fld := ⟨0xA00010, 4, 4⟩
def F.HOSTCORE_CLU_STATUS_GATED : Fld := ⟨0xA00010, 0, 4⟩
def F.HOSTCORE_L2_MISS_COUNT : Fld := ⟨0xA00014, 0, 32⟩

/-! Fields of the registers of Table AS-11. -/
def F.ASSAY_BOOT_STATUS_CODE : Fld := ⟨0x40000, 24, 8⟩
def F.ASSAY_BOOT_STATUS_CODE_A : Fld := ⟨0x40000, 16, 8⟩
def F.ASSAY_BOOT_STATUS_CODE_B : Fld := ⟨0x40000, 8, 8⟩
def F.ASSAY_BOOT_STATUS_WAKE : Fld := ⟨0x40000, 7, 1⟩
def F.ASSAY_BOOT_STATUS_FALLBACK : Fld := ⟨0x40000, 6, 1⟩
def F.ASSAY_BOOT_STATUS_RECOVERY : Fld := ⟨0x40000, 5, 1⟩
def F.ASSAY_BOOT_STATUS_SET : Fld := ⟨0x40000, 4, 1⟩
def F.ASSAY_BOOT_STATUS_MINVER_REC_BAD : Fld := ⟨0x40000, 3, 1⟩
def F.ASSAY_BOOT_STATUS_FUSE_CE : Fld := ⟨0x40000, 2, 1⟩
def F.ASSAY_BOOT_STATUS_STAGE : Fld := ⟨0x40000, 0, 2⟩
def F.ASSAY_BOOT_DETAIL_SUBCODE : Fld := ⟨0x40004, 8, 8⟩
def F.ASSAY_BOOT_DETAIL_SLOT_DRT : Fld := ⟨0x40004, 4, 2⟩
def F.ASSAY_BOOT_DETAIL_SLOT_S1 : Fld := ⟨0x40004, 0, 2⟩
def F.ASSAY_VER_S1_VERSION : Fld := ⟨0x40008, 0, 32⟩
def F.ASSAY_VER_DRT_VERSION : Fld := ⟨0x4000C, 0, 32⟩
def F.ASSAY_MINVER_MINVER : Fld := ⟨0x40010, 0, 32⟩
def F.ASSAY_KEYSLOT_REVOKED : Fld := ⟨0x40014, 4, 4⟩
def F.ASSAY_KEYSLOT_PROGRAMMED : Fld := ⟨0x40014, 0, 4⟩
def F.ASSAY_BOOT_TIME_US : Fld := ⟨0x40018, 0, 32⟩
def F.ASSAY_RECOV_CMD_OP : Fld := ⟨0x40020, 30, 2⟩
def F.ASSAY_RECOV_CMD_PAGE : Fld := ⟨0x40020, 0, 6⟩
def F.ASSAY_RECOV_STATUS_REASON : Fld := ⟨0x40024, 24, 8⟩
def F.ASSAY_RECOV_STATUS_STATE : Fld := ⟨0x40024, 0, 3⟩
def F.ASSAY_RETRY_SET : Fld := ⟨0x40028, 0, 1⟩

/-! Fields of the registers of Table TR-11. -/
def F.MB_CTRL_GO : Fld := ⟨0x44000, 0, 1⟩
def F.MB_STATUS_REASON : Fld := ⟨0x44004, 24, 8⟩
def F.MB_STATUS_STATE : Fld := ⟨0x44004, 0, 2⟩
def F.TRUST_INTEGRITY_COUNT : Fld := ⟨0x44030, 0, 32⟩
def F.TRUST_LOCK_DENIED_COUNT : Fld := ⟨0x44034, 0, 32⟩
def F.TRUST_DBG_JTAG_COUNT : Fld := ⟨0x44038, 0, 32⟩
def F.TRUST_DBG_PF_COUNT : Fld := ⟨0x4403C, 0, 32⟩

/-! Fields of the registers of Table PW-5. -/
def F.REIN_GAIT_GAIT : Fld := ⟨0x20000, 0, 2⟩
def F.REIN_CAP_COOL_B : Fld := ⟨0x20004, 0, 1⟩
def F.REIN_PL_SUST_W : Fld := ⟨0x20008, 0, 9⟩
def F.REIN_PL_FAST_W : Fld := ⟨0x2000C, 0, 9⟩
def F.REIN_WINDOW_SECONDS : Fld := ⟨0x20010, 0, 6⟩
def F.REIN_HOST_LIMIT_MHZ : Fld := ⟨0x20014, 0, 12⟩
def F.REIN_SRC_ADDR : Fld := ⟨0x20018, 1, 7⟩
def F.REIN_SRC_MODE : Fld := ⟨0x20018, 0, 1⟩
def F.REIN_STATUS_REASONS : Fld := ⟨0x20020, 24, 8⟩
def F.REIN_STATUS_TELEM_FAIL : Fld := ⟨0x20020, 3, 1⟩
def F.REIN_STATUS_FLOOR : Fld := ⟨0x20020, 2, 1⟩
def F.REIN_STATUS_GAIT_REJECT : Fld := ⟨0x20020, 1, 1⟩
def F.REIN_STATUS_WRITE_REJECT : Fld := ⟨0x20020, 0, 1⟩
def F.REIN_FREQ_ALLOWED : Fld := ⟨0x20024, 16, 12⟩
def F.REIN_FREQ_RUN : Fld := ⟨0x20024, 0, 12⟩
def F.REIN_P_FAST_DW : Fld := ⟨0x20028, 0, 16⟩
def F.REIN_P_SUST_DW : Fld := ⟨0x2002C, 0, 16⟩
def F.REIN_VCORE_MEAS_MV : Fld := ⟨0x20030, 16, 16⟩
def F.REIN_VCORE_TARGET_MV : Fld := ⟨0x20030, 0, 16⟩
def F.REIN_SLEEP_REQ : Fld := ⟨0x20040, 0, 1⟩
def F.REIN_WAKE_TIMER_SECONDS : Fld := ⟨0x20044, 0, 32⟩
def F.REIN_TR_COUNT_COUNT (i : Nat) : Fld := ⟨0x20100 + 16 * i, 0, 32⟩
def F.REIN_TR_US_LO_US (i : Nat) : Fld := ⟨0x20104 + 16 * i, 0, 32⟩
def F.REIN_TR_US_HI_US (i : Nat) : Fld := ⟨0x20108 + 16 * i, 0, 32⟩

/-! Fields of the registers of Table PW-6. -/
def F.CURB_CTRL_RATE_HI : Fld := ⟨0x28000, 16, 8⟩
def F.CURB_CTRL_THR_INIT : Fld := ⟨0x28000, 8, 6⟩
def F.CURB_CTRL_ADAPT : Fld := ⟨0x28000, 0, 1⟩
def F.CURB_LOST_T_CYCLES (i : Nat) : Fld := ⟨0x28010 + 4 * i, 0, 32⟩
def F.CURB_LOST_U_CYCLES : Fld := ⟨0x28030, 0, 32⟩
def F.CURB_DET_THR (i : Nat) : Fld := ⟨0x28100 + 4 * i, 16, 6⟩
def F.CURB_DET_FIRES (i : Nat) : Fld := ⟨0x28100 + 4 * i, 0, 16⟩

/-! Fields of the registers of Table PW-7. -/
def F.THERM_TJ_SENSOR : Fld := ⟨0x30000, 16, 5⟩
def F.THERM_TJ_TEMP : Fld := ⟨0x30000, 0, 12⟩
def F.THERM_THR_T_THR : Fld := ⟨0x30004, 0, 8⟩
def F.THERM_STATUS_SENSOR_FAIL : Fld := ⟨0x30008, 2, 1⟩
def F.THERM_STATUS_MULTI_FAIL : Fld := ⟨0x30008, 1, 1⟩
def F.THERM_STATUS_THROTTLING : Fld := ⟨0x30008, 0, 1⟩
def F.THERM_TRIP_REC_VALID : Fld := ⟨0x30010, 31, 1⟩
def F.THERM_TRIP_REC_SENSOR : Fld := ⟨0x30010, 16, 5⟩
def F.THERM_TRIP_REC_TEMP : Fld := ⟨0x30010, 0, 12⟩
def F.THERM_TRIP_TICK_LO_TICK : Fld := ⟨0x30014, 0, 32⟩
def F.THERM_TRIP_TICK_HI_TICK : Fld := ⟨0x30018, 0, 32⟩
def F.THERM_SENSOR_VALID (i : Nat) : Fld := ⟨0x30100 + 4 * i, 31, 1⟩
def F.THERM_SENSOR_TEMP (i : Nat) : Fld := ⟨0x30100 + 4 * i, 0, 12⟩

/-! Fields of the registers of Table RL-7. -/
def F.RAS_CTRL_VEC : Fld := ⟨0x800000, 8, 5⟩
def F.RAS_CTRL_TRANS_LIM : Fld := ⟨0x800000, 0, 8⟩
def F.RAS_STATUS_AUDIT_FAIL : Fld := ⟨0x800004, 3, 1⟩
def F.RAS_STATUS_UE_SEEN : Fld := ⟨0x800004, 2, 1⟩
def F.RAS_STATUS_CMD_REJECT : Fld := ⟨0x800004, 1, 1⟩
def F.RAS_STATUS_WRITE_REJECT : Fld := ⟨0x800004, 0, 1⟩
def F.RAS_GUARD_TOLF (i : Nat) : Fld := ⟨0x800010 + 4 * i, 2, 8⟩
def F.RAS_GUARD_MODE (i : Nat) : Fld := ⟨0x800010 + 4 * i, 0, 2⟩
def F.RAS_CMD_OP : Fld := ⟨0x800040, 29, 3⟩
def F.RAS_CMD_DTYPE : Fld := ⟨0x800040, 26, 3⟩
def F.RAS_CMD_INST : Fld := ⟨0x800040, 0, 8⟩
def F.RAS_CMD_RESULT_STATE : Fld := ⟨0x800044, 30, 2⟩
def F.RAS_CMD_RESULT_REASON : Fld := ⟨0x800044, 0, 8⟩
def F.RAS_ECC_CE_m_COUNT (i : Nat) : Fld := ⟨0x800100 + 8 * i, 0, 32⟩
def F.RAS_ECC_UE_m_COUNT (i : Nat) : Fld := ⟨0x800104 + 8 * i, 0, 32⟩
def F.RAS_UE_LOG0_CLASS : Fld := ⟨0x800200, 28, 4⟩
def F.RAS_UE_LOG0_UNIT : Fld := ⟨0x800200, 20, 8⟩
def F.RAS_UE_LOG1_ADDR : Fld := ⟨0x800204, 0, 32⟩
def F.RAS_UE_LOG2_ADDR : Fld := ⟨0x800208, 0, 16⟩
def F.RAS_UE_LOG3_TICK : Fld := ⟨0x80020C, 0, 32⟩
def F.RAS_LMAP_PRESENT (i : Nat) : Fld := ⟨0x800400 + 4 * i, 8, 1⟩
def F.RAS_LMAP_TEAM (i : Nat) : Fld := ⟨0x800400 + 4 * i, 4, 3⟩
def F.RAS_LMAP_SLOT (i : Nat) : Fld := ⟨0x800400 + 4 * i, 0, 4⟩
def F.RAS_TEAM_STATE_TEAM_t (j : Nat) : Fld := ⟨0x800500, 4 * j, 4⟩
def F.RAS_DECGRP_STATE_GRP_g (j : Nat) : Fld := ⟨0x800504, 4 * j, 4⟩
def F.RAS_HCC_STATE_CLU_c (j : Nat) : Fld := ⟨0x800508, 4 * j, 4⟩
def F.RAS_LOG_STATUS_TOTAL : Fld := ⟨0x800600, 8, 24⟩
def F.RAS_LOG_STATUS_NEXT : Fld := ⟨0x800600, 0, 4⟩
def F.RAS_AUDIT_LAST_RESOURCE : Fld := ⟨0x800610, 28, 4⟩
def F.RAS_AUDIT_LAST_UE : Fld := ⟨0x800610, 27, 1⟩
def F.RAS_AUDIT_LAST_INSTANCE : Fld := ⟨0x800610, 0, 27⟩

/-! Fields of the registers of Table MD-7. -/
def F.DBG_SESSION_CMD_OP : Fld := ⟨0x900000, 30, 2⟩
def F.DBG_SESSION_CMD_SCOPE : Fld := ⟨0x900000, 0, 8⟩
def F.DBG_SESSION_STATUS_PF_OPEN : Fld := ⟨0x900004, 31, 1⟩
def F.DBG_SESSION_STATUS_JTAG_ATTACHED : Fld := ⟨0x900004, 30, 1⟩
def F.DBG_SESSION_STATUS_JTAG_EN : Fld := ⟨0x900004, 29, 1⟩
def F.DBG_SESSION_STATUS_PF_SCOPE : Fld := ⟨0x900004, 8, 8⟩
def F.DBG_SESSION_STATUS_REACHED : Fld := ⟨0x900004, 0, 8⟩
def F.DBG_STATUS_CMD_REJECT : Fld := ⟨0x900008, 1, 1⟩
def F.DBG_STATUS_WRITE_REJECT : Fld := ⟨0x900008, 0, 1⟩
def F.PROF_CTRL_LOG2 : Fld := ⟨0x900020, 1, 5⟩
def F.PROF_CTRL_ENABLE : Fld := ⟨0x900020, 0, 1⟩
def F.PROF_BASE_LO_ADDR : Fld := ⟨0x900024, 6, 26⟩
def F.PROF_BASE_HI_ADDR : Fld := ⟨0x900028, 0, 3⟩
def F.PROF_WRITTEN_COUNT : Fld := ⟨0x90002C, 0, 32⟩
def F.DBG_CORE_CTRL_EVT_HALT (k : Nat) : Fld := ⟨slotBase k + 0x100, 1, 1⟩
def F.DBG_CORE_CTRL_ENG_HOLD (k : Nat) : Fld := ⟨slotBase k + 0x100, 0, 1⟩
def F.DBG_CORE_CMD_OP (k : Nat) : Fld := ⟨slotBase k + 0x104, 30, 2⟩
def F.DBG_CORE_STATUS_CAUSE (k : Nat) : Fld := ⟨slotBase k + 0x108, 24, 8⟩
def F.DBG_CORE_STATUS_BP (k : Nat) : Fld := ⟨slotBase k + 0x108, 16, 2⟩
def F.DBG_CORE_STATUS_CODE (k : Nat) : Fld := ⟨slotBase k + 0x108, 0, 16⟩
def F.DBG_BP_CTRL_EN (k i : Nat) : Fld := ⟨slotBase k + 0x110 + 16 * i, 31, 1⟩
def F.DBG_BP_CTRL_KIND (k i : Nat) : Fld := ⟨slotBase k + 0x110 + 16 * i, 30, 1⟩
def F.DBG_BP_CTRL_TAG_MASK (k i : Nat) : Fld := ⟨slotBase k + 0x110 + 16 * i, 0, 16⟩
def F.DBG_BP_VAL_LO_VAL (k i : Nat) : Fld := ⟨slotBase k + 0x114 + 16 * i, 0, 32⟩
def F.DBG_BP_VAL_HI_VAL (k i : Nat) : Fld := ⟨slotBase k + 0x118 + 16 * i, 0, 16⟩
def F.TRACE_CTRL_MASK (t : Nat) : Fld := ⟨teamBase t + 0x300, 16, 16⟩
def F.TRACE_CTRL_STOP_ON_BP (t : Nat) : Fld := ⟨teamBase t + 0x300, 2, 1⟩
def F.TRACE_CTRL_STOP (t : Nat) : Fld := ⟨teamBase t + 0x300, 1, 1⟩
def F.TRACE_CTRL_EN (t : Nat) : Fld := ⟨teamBase t + 0x300, 0, 1⟩
def F.TRACE_STATUS_WRAPPED (t : Nat) : Fld := ⟨teamBase t + 0x304, 12, 1⟩
def F.TRACE_STATUS_NEXT (t : Nat) : Fld := ⟨teamBase t + 0x304, 0, 12⟩
def F.TRACE_LOST_COUNT (t : Nat) : Fld := ⟨teamBase t + 0x308, 0, 32⟩
def F.HOSTCORE_LIVE_BASE_SIZE : Fld := ⟨0xA00100, 16, 8⟩
def F.HOSTCORE_LIVE_BASE_BASE : Fld := ⟨0xA00100, 0, 8⟩
def F.HOSTCORE_LIVE_CMD_OP : Fld := ⟨0xA00104, 29, 3⟩
def F.HOSTCORE_LIVE_CMD_PART : Fld := ⟨0xA00104, 0, 3⟩
def F.HOSTCORE_LIVE_STATUS_STATE : Fld := ⟨0xA00108, 29, 3⟩
def F.HOSTCORE_LIVE_STATUS_WRITE_REJECT : Fld := ⟨0xA00108, 28, 1⟩
def F.HOSTCORE_LIVE_STATUS_REASON : Fld := ⟨0xA00108, 8, 8⟩
def F.HOSTCORE_LIVE_STATUS_MOVED : Fld := ⟨0xA00108, 0, 8⟩

/-! Fields of the registers of Table HF-6. -/
def F.FAB_RETX_COUNT : Fld := ⟨0x600040, 0, 32⟩
def F.FAB_DUP_COUNT : Fld := ⟨0x600044, 0, 32⟩
def F.FAB_DROP_COUNT : Fld := ⟨0x600048, 0, 32⟩
def F.FAB_ING_DROP_COUNT : Fld := ⟨0x60004C, 0, 32⟩
def F.FAB_FREQ_LATE_COUNT : Fld := ⟨0x600050, 0, 32⟩
def F.FAB_FANN_MISS_COUNT : Fld := ⟨0x600054, 0, 32⟩
def F.FAB_CRED_RECLAIM_COUNT : Fld := ⟨0x600058, 0, 32⟩

/-! Fields of the registers of Table RL-7. -/
def F.RAS_CHK_TRANSIENT_COUNT : Fld := ⟨0x800060, 0, 32⟩
def F.RAS_CHK_PERSIST_COUNT : Fld := ⟨0x800064, 0, 32⟩
def F.RAS_CHK_SKIP_COUNT : Fld := ⟨0x800068, 0, 32⟩
def F.RAS_CHK_REPLAY_CYC_COUNT : Fld := ⟨0x80006C, 0, 32⟩
def F.RAS_UNPOP_WR_COUNT : Fld := ⟨0x800070, 0, 32⟩
def F.RAS_ASSAY_AF_COUNT : Fld := ⟨0x800074, 0, 32⟩
def F.RAS_AUDIT_COUNT_COUNT : Fld := ⟨0x800078, 0, 32⟩

/-! Fields of the registers of Table HF-6. -/
def F.FAB_JOB_MEMBERS_MEMBERS (i : Nat) : Fld := ⟨0x600108 + 4 * i, 0, 32⟩
def F.FAB_JOB_LATE_MEMBERS (i : Nat) : Fld := ⟨0x600128 + 4 * i, 0, 32⟩
def F.FAB_JOB_UNREACH_MEMBERS (i : Nat) : Fld := ⟨0x600130 + 4 * i, 0, 32⟩
def F.FAB_COP_DATA (i : Nat) : Fld := ⟨0x600200 + 4 * i, 0, 32⟩

/-! Fields of the registers of Table TR-11. -/
def F.MB_NONCE_NONCE (i : Nat) : Fld := ⟨0x44010 + 4 * i, 0, 32⟩
def F.MB_REQ_DATA (i : Nat) : Fld := ⟨0x42000 + 4 * i, 0, 32⟩
def F.MB_RSP_DATA (i : Nat) : Fld := ⟨0x43000 + 4 * i, 0, 32⟩

/-! Fields of the registers of Table AS-11. -/
def F.ASSAY_RECOV_PAGE_DATA (i : Nat) : Fld := ⟨0x41000 + 4 * i, 0, 32⟩

/-! Fields of the registers of Table RL-7. -/
def F.RAS_FENCE_LOG_DATA (i : Nat) : Fld := ⟨0x801000 + 4 * i, 0, 32⟩

/-! Fields of the registers of Table HF-6. -/
def F.FAB_PEER_DATA (i : Nat) : Fld := ⟨0x601000 + 4 * i, 0, 32⟩
def F.FAB_INGEST_DATA (i : Nat) : Fld := ⟨0x602000 + 4 * i, 0, 32⟩

/-! Fields of the registers of Table HQ-2. -/
def F.RING_DATA (i : Nat) : Fld := ⟨0x100000 + 4 * i, 0, 32⟩

/-! Fields of the registers of Table VF-1. -/
def F.VIS_CTX_DATA (i : Nat) : Fld := ⟨0x780000 + 4 * i, 0, 32⟩

/-! Fields of the registers of Table VF-8. -/
def F.VIS_SWAGE_DATA (i : Nat) : Fld := ⟨0x740000 + 4 * i, 0, 32⟩

/-! Fields of the registers of Table VF-4. -/
def F.VIS_ISP_DATA (i : Nat) : Fld := ⟨0x710000 + 4 * i, 0, 32⟩

/-! Fields of the registers of Table HQ-4. -/
def F.DISP_TEMPLATE_DATA (i : Nat) : Fld := ⟨0x240000 + 4 * i, 0, 32⟩

/-- The registers of the Glb block. -/
def regsGlb : List RegDesc := [
  /- GLB_IDENT -/ ⟨0x0, [], [⟨16, 16, .ro, 0xC07⟩, ⟨8, 8, .ro, 0x0⟩, ⟨4, 4, .ro, 0x1⟩, ⟨0, 4, .ro, 0x0⟩]⟩,
  /- GLB_CAP_COMPUTE -/ ⟨0x4, [], [⟨16, 8, .ro, 0x0⟩, ⟨8, 8, .ro, 0x0⟩, ⟨0, 8, .ro, 0x0⟩]⟩,
  /- GLB_CAP_VIDEO -/ ⟨0x8, [], [⟨16, 16, .ro, 0x0⟩, ⟨8, 8, .ro, 0x0⟩, ⟨6, 2, .ro, 0x0⟩, ⟨4, 2, .ro, 0x0⟩, ⟨3, 1, .ro, 0x1⟩]⟩,
  /- GLB_CAP_IO -/ ⟨0xC, [], [⟨8, 8, .ro, 0x10⟩, ⟨0, 2, .ro, 0x0⟩]⟩]

/-- The registers of the Pace block. -/
def regsPace : List RegDesc := [
  /- PACE_CTRL -/ ⟨0x10000, [], [⟨8, 8, .rw, 0x0⟩, ⟨7, 1, .rw, 0x0⟩, ⟨6, 1, .rw, 0x0⟩, ⟨4, 2, .rw, 0x0⟩, ⟨2, 2, .rw, 0x0⟩, ⟨1, 1, .ro, 0x0⟩, ⟨0, 1, .rw, 0x0⟩]⟩,
  /- PACE_STATUS -/ ⟨0x10008, [], [⟨15, 1, .w1c, 0x0⟩, ⟨14, 1, .w1c, 0x0⟩, ⟨13, 1, .w1c, 0x0⟩, ⟨12, 1, .w1c, 0x0⟩, ⟨8, 2, .ro, 0x0⟩, ⟨3, 1, .ro, 0x0⟩, ⟨0, 3, .ro, 0x0⟩]⟩,
  /- PACE_PERIOD -/ ⟨0x10004, [], [⟨0, 17, .rw, 0x2710⟩]⟩,
  /- PACE_TICK_LO -/ ⟨0x10010, [], [⟨0, 32, .ro, 0x0⟩]⟩,
  /- PACE_TICK_HI -/ ⟨0x10014, [], [⟨0, 32, .ro, 0x0⟩]⟩,
  /- PACE_BUDGET -/ ⟨0x10018, [], [⟨0, 27, .ro, 0x0⟩]⟩,
  /- PACE_ORIGIN_NS -/ ⟨0x10020, [], [⟨0, 30, .rw, 0x0⟩]⟩,
  /- PACE_ORIGIN_SEC_LO -/ ⟨0x10024, [], [⟨0, 32, .rw, 0x0⟩]⟩,
  /- PACE_ORIGIN_SEC_HI -/ ⟨0x10028, [], [⟨0, 16, .rw, 0x0⟩]⟩,
  /- PACE_OFFSET -/ ⟨0x10030, [], [⟨0, 32, .ro, 0x0⟩]⟩,
  /- PACE_HOLDOVER -/ ⟨0x10034, [], [⟨0, 16, .rw, 0x7D0⟩]⟩,
  /- PACE_IN_DELAY -/ ⟨0x10038, [], [⟨0, 12, .rw, 0x0⟩]⟩,
  /- PACE_OVR_COUNT -/ ⟨0x10040, [], [⟨0, 32, .ro, 0x0⟩]⟩,
  /- PACE_OVR_LAST -/ ⟨0x10044, [], [⟨0, 32, .ro, 0x0⟩]⟩,
  /- PACE_OVR_MAX -/ ⟨0x10048, [], [⟨0, 32, .rc, 0x0⟩]⟩,
  /- PACE_OVR_CORE_LO -/ ⟨0x10050, [], [⟨0, 32, .w1c, 0x0⟩]⟩,
  /- PACE_OVR_CORE_HI -/ ⟨0x10054, [], [⟨0, 32, .w1c, 0x0⟩]⟩,
  /- PACE_TMRn_DL_LO -/ ⟨0x10100, [(16, 16)], [⟨0, 32, .rw, 0x0⟩]⟩,
  /- PACE_TMRn_DL_HI -/ ⟨0x10104, [(16, 16)], [⟨0, 32, .rw, 0x0⟩]⟩,
  /- PACE_TMRn_CTRL -/ ⟨0x10108, [(16, 16)], [⟨1, 1, .w1c, 0x0⟩, ⟨0, 1, .rw, 0x0⟩]⟩]

/-- The registers of the Team block. -/
def regsTeam : List RegDesc := [
  /- TEAM_STATUS -/ ⟨0x1000000, [(0x400000, 8)], [⟨16, 9, .ro, 0x1FF⟩, ⟨0, 9, .ro, 0xFF⟩]⟩,
  /- TEAM_PWR_CTRL -/ ⟨0x1000010, [(0x400000, 8)], [⟨8, 8, .rw, 0x4⟩, ⟨0, 2, .rw, 0x1⟩]⟩,
  /- TEAM_PWR_STATUS -/ ⟨0x1000014, [(0x400000, 8)], [⟨0, 2, .ro, 0x0⟩]⟩,
  /- TEAM_WAKE_COUNT -/ ⟨0x1000018, [(0x400000, 8)], [⟨0, 32, .rc, 0x0⟩]⟩,
  /- EF_QUEUE_STATUS -/ ⟨0x1000100, [(0x400000, 8)], [⟨16, 5, .ro, 0x10⟩, ⟨0, 5, .ro, 0x10⟩]⟩,
  /- TALLY_ARG0 -/ ⟨0x1000200, [(0x400000, 8)], [⟨0, 32, .rw, 0x0⟩]⟩,
  /- TALLY_ARG1 -/ ⟨0x1000204, [(0x400000, 8)], [⟨0, 32, .rw, 0x0⟩]⟩,
  /- TALLY_CMD -/ ⟨0x1000208, [(0x400000, 8)], [⟨30, 2, .wo, 0x0⟩, ⟨0, 8, .wo, 0x0⟩]⟩,
  /- TALLY_STATUS -/ ⟨0x100020C, [(0x400000, 8)], [⟨8, 1, .w1c, 0x0⟩, ⟨0, 7, .ro, 0x0⟩]⟩,
  /- TALLY_DUP_COUNT -/ ⟨0x1000210, [(0x400000, 8)], [⟨0, 32, .rc, 0x0⟩]⟩,
  /- TALLY_n_EPOCH -/ ⟨0x1001000, [(0x400000, 8), (16, 256)], [⟨0, 32, .ro, 0x0⟩]⟩,
  /- TALLY_n_LIMIT -/ ⟨0x1001004, [(0x400000, 8), (16, 256)], [⟨0, 32, .ro, 0x0⟩]⟩,
  /- TALLY_n_NEXT -/ ⟨0x1001008, [(0x400000, 8), (16, 256)], [⟨0, 32, .ro, 0x0⟩]⟩,
  /- TALLY_n_HWM -/ ⟨0x100100C, [(0x400000, 8), (16, 256)], [⟨0, 32, .ro, 0x0⟩]⟩,
  /- TRACE_CTRL -/ ⟨0x1000300, [(0x400000, 8)], [⟨16, 16, .rw, 0x0⟩, ⟨2, 1, .rw, 0x0⟩, ⟨1, 1, .rw, 0x0⟩, ⟨0, 1, .rw, 0x0⟩]⟩,
  /- TRACE_STATUS -/ ⟨0x1000304, [(0x400000, 8)], [⟨12, 1, .ro, 0x0⟩, ⟨0, 12, .ro, 0x0⟩]⟩,
  /- TRACE_LOST -/ ⟨0x1000308, [(0x400000, 8)], [⟨0, 32, .rc, 0x0⟩]⟩]

/-- The registers of the Slot block. -/
def regsSlot : List RegDesc := [
  /- CORE_STATUS -/ ⟨0x1040000, [(0x400000, 8), (0x40000, 9)], [⟨24, 8, .ro, 0x0⟩, ⟨8, 8, .ro, 0x0⟩, ⟨3, 1, .ro, 0x0⟩, ⟨2, 1, .ro, 0x0⟩, ⟨1, 1, .ro, 0x0⟩, ⟨0, 1, .ro, 0x0⟩]⟩,
  /- MX_ACTIVE_CYC -/ ⟨0x1040040, [(0x400000, 8), (0x40000, 9)], [⟨0, 32, .rc, 0x0⟩]⟩,
  /- MX_VALID_SLOTS -/ ⟨0x1040044, [(0x400000, 8), (0x40000, 9)], [⟨0, 32, .rc, 0x0⟩]⟩,
  /- MX_BUBBLE_WEIGHT -/ ⟨0x1040048, [(0x400000, 8), (0x40000, 9)], [⟨0, 32, .rc, 0x0⟩]⟩,
  /- MX_BUBBLE_STARVE -/ ⟨0x104004C, [(0x400000, 8), (0x40000, 9)], [⟨0, 32, .rc, 0x0⟩]⟩,
  /- MX_BUBBLE_DRAIN -/ ⟨0x1040050, [(0x400000, 8), (0x40000, 9)], [⟨0, 32, .rc, 0x0⟩]⟩,
  /- MX_BUBBLE_ALIGN -/ ⟨0x1040054, [(0x400000, 8), (0x40000, 9)], [⟨0, 32, .rc, 0x0⟩]⟩,
  /- CR_SAT_COUNT -/ ⟨0x1040058, [(0x400000, 8), (0x40000, 9)], [⟨0, 32, .rc, 0x0⟩]⟩,
  /- VEC_CTRL -/ ⟨0x1040080, [(0x400000, 8), (0x40000, 9)], [⟨0, 1, .rw, 0x0⟩]⟩,
  /- VEC_STATUS -/ ⟨0x1040084, [(0x400000, 8), (0x40000, 9)], [⟨3, 1, .ro, 0x0⟩, ⟨2, 1, .ro, 0x0⟩, ⟨1, 1, .w1c, 0x0⟩, ⟨0, 1, .w1c, 0x0⟩]⟩,
  /- VEC_BUNDLES -/ ⟨0x1040088, [(0x400000, 8), (0x40000, 9)], [⟨0, 32, .rc, 0x0⟩]⟩,
  /- VEC_HELD_CYC -/ ⟨0x104008C, [(0x400000, 8), (0x40000, 9)], [⟨0, 32, .rc, 0x0⟩]⟩,
  /- VEC_WIN_CYC -/ ⟨0x1040090, [(0x400000, 8), (0x40000, 9)], [⟨0, 32, .rc, 0x0⟩]⟩,
  /- CS_CTRL -/ ⟨0x10400C0, [(0x400000, 8), (0x40000, 9)], [⟨0, 1, .rw, 0x0⟩]⟩,
  /- CS_CONFLICT -/ ⟨0x10400C4, [(0x400000, 8), (0x40000, 9)], [⟨0, 32, .rc, 0x0⟩]⟩,
  /- CS_SAMEROW -/ ⟨0x10400C8, [(0x400000, 8), (0x40000, 9)], [⟨0, 32, .rc, 0x0⟩]⟩,
  /- NOC_IN_CYC -/ ⟨0x10400CC, [(0x400000, 8), (0x40000, 9)], [⟨0, 32, .rc, 0x0⟩]⟩,
  /- SEM_n -/ ⟨0x1040800, [(0x400000, 8), (0x40000, 9), (4, 64)], [⟨0, 16, .ro, 0x0⟩]⟩,
  /- DBG_CORE_CTRL -/ ⟨0x1040100, [(0x400000, 8), (0x40000, 9)], [⟨1, 1, .rw, 0x0⟩, ⟨0, 1, .rw, 0x0⟩]⟩,
  /- DBG_CORE_CMD -/ ⟨0x1040104, [(0x400000, 8), (0x40000, 9)], [⟨30, 2, .wo, 0x0⟩]⟩,
  /- DBG_CORE_STATUS -/ ⟨0x1040108, [(0x400000, 8), (0x40000, 9)], [⟨24, 8, .ro, 0x0⟩, ⟨16, 2, .ro, 0x0⟩, ⟨0, 16, .ro, 0x0⟩]⟩,
  /- DBG_BP_b_CTRL -/ ⟨0x1040110, [(0x400000, 8), (0x40000, 9), (16, 4)], [⟨31, 1, .rw, 0x0⟩, ⟨30, 1, .rw, 0x0⟩, ⟨0, 16, .rw, 0xFFFF⟩]⟩,
  /- DBG_BP_b_VAL_LO -/ ⟨0x1040114, [(0x400000, 8), (0x40000, 9), (16, 4)], [⟨0, 32, .rw, 0x0⟩]⟩,
  /- DBG_BP_b_VAL_HI -/ ⟨0x1040118, [(0x400000, 8), (0x40000, 9), (16, 4)], [⟨0, 16, .rw, 0x0⟩]⟩]

/-- The registers of the Disp block. -/
def regsDisp : List RegDesc := [
  /- DISP_PLOAD_ADDR_LO -/ ⟨0x200040, [], [⟨6, 26, .rw, 0x0⟩]⟩,
  /- DISP_PLOAD_ADDR_HI -/ ⟨0x200044, [], [⟨0, 3, .rw, 0x0⟩]⟩,
  /- DISP_PLOAD_CMD -/ ⟨0x200048, [], [⟨30, 2, .wo, 0x0⟩, ⟨0, 3, .wo, 0x0⟩]⟩,
  /- DISP_PLOAD_STATUS -/ ⟨0x20004C, [], [⟨30, 2, .ro, 0x0⟩, ⟨9, 3, .ro, 0x0⟩, ⟨8, 1, .w1c, 0x0⟩, ⟨0, 8, .ro, 0x0⟩]⟩,
  /- DISP_CTRL -/ ⟨0x200000, [], [⟨0, 7, .rw, 0x5A⟩]⟩,
  /- DISP_STATUS -/ ⟨0x200004, [], [⟨1, 1, .ro, 0x0⟩, ⟨0, 1, .w1c, 0x0⟩]⟩,
  /- DISP_ADMITTED -/ ⟨0x200010, [], [⟨0, 32, .rc, 0x0⟩]⟩,
  /- DISP_DEFERRED -/ ⟨0x200014, [], [⟨0, 32, .rc, 0x0⟩]⟩,
  /- DISP_REFUSED -/ ⟨0x200018, [], [⟨0, 32, .rc, 0x0⟩]⟩,
  /- DISP_FRAME_HELD -/ ⟨0x20001C, [], [⟨0, 32, .rc, 0x0⟩]⟩,
  /- DISP_P_HSHARE_G -/ ⟨0x200100, [(16, 8)], [⟨0, 32, .rw, 0x0⟩]⟩,
  /- DISP_P_HSHARE -/ ⟨0x200104, [(16, 8)], [⟨0, 32, .rw, 0x0⟩]⟩,
  /- DISP_TEMPLATE -/ ⟨0x240000, [(4, 65536)], [⟨0, 32, .rw, 0x0⟩]⟩]

/-- The registers of the Stab block. -/
def regsStab : List RegDesc := [
  /- KVA_CTL_BASE_LO -/ ⟨0x3C0000, [(0x100, 8)], [⟨12, 20, .rw, 0x0⟩]⟩,
  /- KVA_CTL_BASE_HI -/ ⟨0x3C0004, [(0x100, 8)], [⟨0, 3, .rw, 0x0⟩]⟩,
  /- KVA_CTX_RANGE -/ ⟨0x3C0008, [(0x100, 8)], [⟨16, 13, .rw, 0x0⟩, ⟨0, 12, .rw, 0x0⟩]⟩,
  /- KVA_ARENA -/ ⟨0x3C000C, [(0x100, 8)], [⟨0, 16, .rw, 0x0⟩]⟩,
  /- KVA_CMD -/ ⟨0x3C0010, [(0x100, 8)], [⟨30, 2, .wo, 0x0⟩, ⟨0, 12, .wo, 0x0⟩]⟩,
  /- KVA_FREE_PUSH -/ ⟨0x3C0014, [(0x100, 8)], [⟨28, 4, .wo, 0x0⟩, ⟨0, 28, .wo, 0x0⟩]⟩,
  /- KVA_STATUS -/ ⟨0x3C0018, [(0x100, 8)], [⟨2, 1, .w1c, 0x0⟩, ⟨1, 1, .w1c, 0x0⟩, ⟨0, 1, .w1c, 0x0⟩]⟩,
  /- KVA_REFUSED -/ ⟨0x3C001C, [(0x100, 8)], [⟨0, 32, .rc, 0x0⟩]⟩,
  /- KVA_RING -/ ⟨0x3C0020, [(0x100, 8)], [⟨0, 32, .rc, 0x0⟩]⟩,
  /- KVA_HELD -/ ⟨0x3C0024, [(0x100, 8)], [⟨0, 20, .ro, 0x0⟩]⟩,
  /- KVA_FREE_CNT_k -/ ⟨0x3C0040, [(0x100, 8), (4, 9)], [⟨0, 20, .ro, 0x0⟩]⟩,
  /- STAB_CTRL -/ ⟨0x300000, [], [⟨8, 3, .rw, 0x5⟩, ⟨4, 4, .rw, 0x2⟩, ⟨0, 1, .rw, 0x1⟩]⟩,
  /- STAB_THRESH -/ ⟨0x300004, [], [⟨16, 16, .rw, 0x200⟩, ⟨0, 16, .rw, 0x80⟩]⟩,
  /- STAB_CMD_ARG0 -/ ⟨0x300010, [], [⟨0, 16, .rw, 0x0⟩]⟩,
  /- STAB_CMD_ARG1 -/ ⟨0x300014, [], [⟨0, 17, .rw, 0x0⟩]⟩,
  /- STAB_CMD -/ ⟨0x300018, [], [⟨29, 3, .wo, 0x0⟩, ⟨0, 3, .wo, 0x0⟩]⟩,
  /- STAB_RESULT -/ ⟨0x30001C, [], [⟨30, 2, .ro, 0x0⟩, ⟨0, 8, .ro, 0x0⟩]⟩,
  /- STAB_STATUS -/ ⟨0x300020, [], [⟨1, 1, .ro, 0x0⟩, ⟨0, 1, .w1c, 0x0⟩]⟩,
  /- STAB_MIG_BUDGET -/ ⟨0x300030, [], [⟨0, 32, .ro, 0x0⟩]⟩,
  /- STAB_MIG_USED -/ ⟨0x300034, [], [⟨0, 32, .ro, 0x0⟩]⟩,
  /- STAB_PROMOTIONS -/ ⟨0x300038, [], [⟨0, 32, .rc, 0x0⟩]⟩,
  /- STAB_DEMOTIONS -/ ⟨0x30003C, [], [⟨0, 32, .rc, 0x0⟩]⟩,
  /- STAB_LOST_SEGS -/ ⟨0x300040, [], [⟨0, 32, .rc, 0x0⟩]⟩,
  /- STAB_QUERY -/ ⟨0x300050, [], [⟨16, 3, .wo, 0x0⟩, ⟨0, 16, .wo, 0x0⟩]⟩,
  /- STAB_QHEAT -/ ⟨0x300054, [], [⟨0, 32, .ro, 0x0⟩]⟩,
  /- STAB_QLOC -/ ⟨0x300058, [], [⟨16, 16, .ro, 0x0⟩, ⟨1, 1, .ro, 0x0⟩, ⟨0, 1, .ro, 0x0⟩]⟩,
  /- STAB_P_OBJ_BASE_LO -/ ⟨0x380000, [(0x100, 8)], [⟨5, 27, .rw, 0x0⟩]⟩,
  /- STAB_P_OBJ_BASE_HI -/ ⟨0x380004, [(0x100, 8)], [⟨0, 3, .rw, 0x0⟩]⟩,
  /- STAB_P_OBJ_COUNT -/ ⟨0x380008, [(0x100, 8)], [⟨0, 17, .rw, 0x0⟩]⟩,
  /- STAB_P_ARENA_BASE -/ ⟨0x38000C, [(0x100, 8)], [⟨0, 16, .rw, 0x0⟩]⟩,
  /- STAB_P_ARENA_SIZE -/ ⟨0x380010, [(0x100, 8)], [⟨0, 16, .rw, 0x0⟩]⟩,
  /- STAB_P_POOL_SHARE -/ ⟨0x380014, [(0x100, 8)], [⟨0, 15, .rw, 0x0⟩]⟩,
  /- STAB_P_POOL_USED -/ ⟨0x380018, [(0x100, 8)], [⟨0, 15, .ro, 0x0⟩]⟩,
  /- STAB_P_ARENA_USED -/ ⟨0x38001C, [(0x100, 8)], [⟨0, 20, .ro, 0x0⟩]⟩]

/-- The registers of the Pool block. -/
def regsPool : List RegDesc := [
  /- POOL_SLICE_STATE -/ ⟨0x400000, [], [⟨0, 4, .ro, 0x1⟩, ⟨4, 4, .ro, 0x1⟩, ⟨8, 4, .ro, 0x1⟩, ⟨12, 4, .ro, 0x1⟩, ⟨16, 4, .ro, 0x1⟩, ⟨20, 4, .ro, 0x1⟩, ⟨24, 4, .ro, 0x1⟩, ⟨28, 4, .ro, 0x1⟩]⟩,
  /- POOL_ADD_LINES -/ ⟨0x400010, [], [⟨0, 32, .rc, 0x0⟩]⟩,
  /- POOL_CONFLICT -/ ⟨0x400014, [], [⟨0, 32, .rc, 0x0⟩]⟩]

/-- The registers of the Gddr block. -/
def regsGddr : List RegDesc := [
  /- GDDR_STATUS -/ ⟨0x500000, [], [⟨8, 2, .ro, 0x0⟩, ⟨0, 3, .ro, 0x0⟩]⟩,
  /- GDDR_CH_STATE -/ ⟨0x500004, [], [⟨0, 2, .ro, 0x3⟩, ⟨2, 2, .ro, 0x3⟩, ⟨4, 2, .ro, 0x3⟩, ⟨6, 2, .ro, 0x3⟩, ⟨8, 2, .ro, 0x3⟩, ⟨10, 2, .ro, 0x3⟩, ⟨12, 2, .ro, 0x3⟩, ⟨14, 2, .ro, 0x3⟩, ⟨16, 2, .ro, 0x3⟩, ⟨18, 2, .ro, 0x3⟩, ⟨20, 2, .ro, 0x3⟩, ⟨22, 2, .ro, 0x3⟩, ⟨24, 2, .ro, 0x3⟩, ⟨26, 2, .ro, 0x3⟩, ⟨28, 2, .ro, 0x3⟩, ⟨30, 2, .ro, 0x3⟩]⟩,
  /- GDDR_RETRAIN -/ ⟨0x500008, [], [⟨0, 10, .rw, 0x64⟩]⟩,
  /- GDDR_SCRUB -/ ⟨0x50000C, [], [⟨0, 8, .rw, 0x18⟩]⟩,
  /- GDDR_CE -/ ⟨0x500010, [], [⟨0, 32, .rc, 0x0⟩]⟩,
  /- GDDR_UE -/ ⟨0x500014, [], [⟨0, 32, .rc, 0x0⟩]⟩,
  /- GDDR_CRC_RETRY -/ ⟨0x500018, [], [⟨0, 32, .rc, 0x0⟩]⟩,
  /- GDDR_RETRAIN_COUNT -/ ⟨0x50001C, [], [⟨0, 32, .rc, 0x0⟩]⟩,
  /- GDDR_ERR_ADDR_LO -/ ⟨0x500020, [], [⟨6, 26, .ro, 0x0⟩]⟩,
  /- GDDR_ERR_ADDR_HI -/ ⟨0x500024, [], [⟨0, 3, .ro, 0x0⟩]⟩]

/-- The registers of the Vis block. -/
def regsVis : List RegDesc := [
  /- VIS_CTX_CMD -/ ⟨0x700000, [], [⟨30, 2, .wo, 0x0⟩, ⟨0, 12, .wo, 0x0⟩]⟩,
  /- VIS_CTX_RESULT -/ ⟨0x700004, [], [⟨30, 2, .ro, 0x0⟩, ⟨8, 12, .ro, 0x0⟩, ⟨0, 8, .ro, 0x0⟩]⟩,
  /- VIS_STATUS -/ ⟨0x700008, [], [⟨2, 1, .w1c, 0x0⟩, ⟨1, 1, .w1c, 0x0⟩, ⟨0, 1, .w1c, 0x0⟩]⟩,
  /- VIS_FB_RELEASE -/ ⟨0x70000C, [], [⟨6, 12, .wo, 0x0⟩, ⟨0, 6, .wo, 0x0⟩]⟩,
  /- VIS_INGEST_PORTS -/ ⟨0x700010, [], [⟨16, 16, .rw, 0x0⟩, ⟨0, 16, .rw, 0xFFFF⟩]⟩,
  /- VIS_JPEG_SUBMIT_LO -/ ⟨0x700014, [], [⟨5, 27, .wo, 0x0⟩]⟩,
  /- VIS_JPEG_SUBMIT_HI -/ ⟨0x700018, [], [⟨0, 3, .wo, 0x0⟩]⟩,
  /- VIS_UNMATCHED -/ ⟨0x700020, [], [⟨0, 32, .rc, 0x0⟩]⟩,
  /- VIS_PKT_DROP -/ ⟨0x700024, [], [⟨0, 32, .rc, 0x0⟩]⟩,
  /- RAW_CTRL -/ ⟨0x701000, [(0x40, 8)], [⟨5, 3, .rw, 0x0⟩, ⟨4, 1, .rw, 0x0⟩, ⟨3, 1, .rw, 0x0⟩, ⟨2, 1, .rw, 0x0⟩, ⟨1, 1, .rw, 0x0⟩, ⟨0, 1, .rw, 0x0⟩]⟩,
  /- RAW_SIZE -/ ⟨0x701004, [(0x40, 8)], [⟨16, 14, .rw, 0x438⟩, ⟨0, 14, .rw, 0x780⟩]⟩,
  /- RAW_PAD -/ ⟨0x701008, [(0x40, 8)], [⟨0, 16, .rw, 0x0⟩]⟩,
  /- RAW_TIMEOUT -/ ⟨0x70100C, [(0x40, 8)], [⟨0, 16, .rw, 0x3E8⟩]⟩,
  /- RAW_ISP_COMMIT -/ ⟨0x701010, [(0x40, 8)], [⟨0, 1, .wo, 0x0⟩]⟩,
  /- RAW_STATUS -/ ⟨0x701014, [(0x40, 8)], [⟨2, 1, .ro, 0x0⟩, ⟨0, 2, .ro, 0x0⟩]⟩,
  /- RAW_FRAMES -/ ⟨0x701018, [(0x40, 8)], [⟨0, 32, .rc, 0x0⟩]⟩,
  /- RAW_STRAY -/ ⟨0x70101C, [(0x40, 8)], [⟨0, 32, .rc, 0x0⟩]⟩,
  /- VIS_CTX -/ ⟨0x780000, [(4, 131072)], [⟨0, 32, .rw, 0x0⟩]⟩,
  /- VIS_SWAGE -/ ⟨0x740000, [(4, 4096)], [⟨0, 32, .rw, 0x0⟩]⟩,
  /- VIS_ISP -/ ⟨0x710000, [(4, 32768)], [⟨0, 32, .rw, 0x0⟩]⟩]

/-- The registers of the Hqe block. -/
def regsHqe : List RegDesc := [
  /- HQE_STATUS -/ ⟨0x80000, [], [⟨1, 1, .ro, 0x0⟩, ⟨0, 1, .w1c, 0x0⟩]⟩,
  /- HQE_APT_BASE_LO -/ ⟨0x80008, [], [⟨28, 4, .rw, 0x0⟩]⟩,
  /- HQE_APT_BASE_HI -/ ⟨0x8000C, [], [⟨0, 3, .rw, 0x0⟩]⟩,
  /- HQE_DESC_FREE -/ ⟨0x80010, [], [⟨0, 15, .ro, 0x4000⟩]⟩,
  /- HQE_DB_IGNORED -/ ⟨0x80014, [], [⟨0, 32, .rc, 0x0⟩]⟩,
  /- HQE_VF_DENIED -/ ⟨0x80018, [], [⟨0, 32, .rc, 0x0⟩]⟩,
  /- HQE_VF_v -/ ⟨0x80100, [(4, 64)], [⟨31, 1, .rw, 0x0⟩, ⟨24, 3, .rw, 0x0⟩, ⟨0, 14, .rw, 0x0⟩]⟩]

/-- The registers of the Fab block. -/
def regsFab : List RegDesc := [
  /- FAB_CTRL -/ ⟨0x600000, [], [⟨3, 1, .rw, 0x0⟩, ⟨2, 1, .rw, 0x1⟩, ⟨0, 2, .rw, 0x0⟩]⟩,
  /- FAB_ID -/ ⟨0x600004, [], [⟨0, 6, .rw, 0x0⟩]⟩,
  /- FAB_ETYPE -/ ⟨0x600008, [], [⟨16, 16, .rw, 0x1E90⟩, ⟨0, 16, .rw, 0x88B5⟩]⟩,
  /- FAB_QOS -/ ⟨0x60000C, [], [⟨8, 6, .rw, 0x2E⟩, ⟨0, 3, .rw, 0x5⟩]⟩,
  /- FAB_TIMERS -/ ⟨0x600010, [], [⟨16, 16, .rw, 0x14⟩, ⟨0, 8, .rw, 0x8⟩]⟩,
  /- FAB_CREDITS -/ ⟨0x600014, [], [⟨0, 5, .rw, 0x8⟩]⟩,
  /- FAB_PORT_f -/ ⟨0x600020, [(4, 2)], [⟨4, 2, .rw, 0x0⟩, ⟨0, 2, .ro, 0x1⟩]⟩,
  /- FAB_STATUS -/ ⟨0x600030, [], [⟨1, 1, .w1c, 0x0⟩, ⟨0, 1, .w1c, 0x0⟩]⟩,
  /- FAB_JOB_ID -/ ⟨0x600100, [], [⟨0, 16, .rw, 0x0⟩]⟩,
  /- FAB_JOB_CFG -/ ⟨0x600104, [], [⟨24, 3, .rw, 0x0⟩, ⟨16, 8, .rw, 0x2⟩, ⟨0, 14, .rw, 0x0⟩]⟩,
  /- FAB_JOB_CMD -/ ⟨0x600110, [], [⟨30, 2, .wo, 0x0⟩]⟩,
  /- FAB_JOB_STATE -/ ⟨0x600114, [], [⟨8, 6, .ro, 0x0⟩, ⟨3, 1, .w1c, 0x0⟩, ⟨0, 3, .ro, 0x0⟩]⟩,
  /- FAB_JOB_FREQ -/ ⟨0x600118, [], [⟨16, 12, .ro, 0x0⟩, ⟨0, 12, .ro, 0x0⟩]⟩,
  /- FAB_JOB_TP -/ ⟨0x60011C, [], [⟨0, 17, .rw, 0x2710⟩]⟩,
  /- FAB_JOB_ARRIVE -/ ⟨0x600120, [], [⟨0, 32, .wo, 0x0⟩]⟩,
  /- FAB_JOB_BAR_TICK -/ ⟨0x600124, [], [⟨0, 32, .ro, 0x0⟩]⟩,
  /- FAB_COP_GO -/ ⟨0x600220, [], []⟩,
  /- FAB_COP_FREE -/ ⟨0x600224, [], [⟨0, 7, .ro, 0x40⟩]⟩,
  /- FAB_RETX -/ ⟨0x600040, [], [⟨0, 32, .rc, 0x0⟩]⟩,
  /- FAB_DUP -/ ⟨0x600044, [], [⟨0, 32, .rc, 0x0⟩]⟩,
  /- FAB_DROP -/ ⟨0x600048, [], [⟨0, 32, .rc, 0x0⟩]⟩,
  /- FAB_ING_DROP -/ ⟨0x60004C, [], [⟨0, 32, .rc, 0x0⟩]⟩,
  /- FAB_FREQ_LATE -/ ⟨0x600050, [], [⟨0, 32, .rc, 0x0⟩]⟩,
  /- FAB_FANN_MISS -/ ⟨0x600054, [], [⟨0, 32, .rc, 0x0⟩]⟩,
  /- FAB_CRED_RECLAIM -/ ⟨0x600058, [], [⟨0, 32, .rc, 0x0⟩]⟩,
  /- FAB_JOB_MEMBERS -/ ⟨0x600108, [(4, 2)], [⟨0, 32, .rw, 0x0⟩]⟩,
  /- FAB_JOB_LATE -/ ⟨0x600128, [(4, 2)], [⟨0, 32, .ro, 0x0⟩]⟩,
  /- FAB_JOB_UNREACH -/ ⟨0x600130, [(4, 2)], [⟨0, 32, .ro, 0x0⟩]⟩,
  /- FAB_COP -/ ⟨0x600200, [(4, 8)], [⟨0, 32, .wo, 0x0⟩]⟩,
  /- FAB_PEER -/ ⟨0x601000, [(4, 1024)], [⟨0, 32, .rw, 0x0⟩]⟩,
  /- FAB_INGEST -/ ⟨0x602000, [(4, 64)], [⟨0, 32, .rw, 0x0⟩]⟩]

/-- The registers of the HostCore block. -/
def regsHostCore : List RegDesc := [
  /- HOSTCORE_MEM_CFG -/ ⟨0xA00000, [], [⟨16, 4, .rw, 0x0⟩, ⟨0, 4, .rw, 0x0⟩]⟩,
  /- HOSTCORE_MEM_STATUS -/ ⟨0xA00004, [], [⟨1, 1, .ro, 0x0⟩, ⟨0, 1, .w1c, 0x0⟩]⟩,
  /- HOSTCORE_L2_CMD -/ ⟨0xA00008, [], [⟨30, 2, .wo, 0x0⟩]⟩,
  /- HOSTCORE_CLU_CTRL -/ ⟨0xA0000C, [], [⟨0, 4, .rw, 0xF⟩]⟩,
  /- HOSTCORE_CLU_STATUS -/ ⟨0xA00010, [], [⟨4, 4, .ro, 0x0⟩, ⟨0, 4, .ro, 0x0⟩]⟩,
  /- HOSTCORE_L2_MISS -/ ⟨0xA00014, [], [⟨0, 32, .rc, 0x0⟩]⟩,
  /- HOSTCORE_LIVE_BASE -/ ⟨0xA00100, [], [⟨16, 8, .rw, 0x0⟩, ⟨0, 8, .rw, 0x0⟩]⟩,
  /- HOSTCORE_LIVE_CMD -/ ⟨0xA00104, [], [⟨29, 3, .wo, 0x0⟩, ⟨0, 3, .wo, 0x0⟩]⟩,
  /- HOSTCORE_LIVE_STATUS -/ ⟨0xA00108, [], [⟨29, 3, .ro, 0x0⟩, ⟨28, 1, .w1c, 0x0⟩, ⟨8, 8, .ro, 0x0⟩, ⟨0, 8, .ro, 0x0⟩]⟩]

/-- The registers of the Assay block. -/
def regsAssay : List RegDesc := [
  /- ASSAY_BOOT_STATUS -/ ⟨0x40000, [], [⟨24, 8, .ro, 0x0⟩, ⟨16, 8, .ro, 0x0⟩, ⟨8, 8, .ro, 0x0⟩, ⟨7, 1, .ro, 0x0⟩, ⟨6, 1, .ro, 0x0⟩, ⟨5, 1, .ro, 0x0⟩, ⟨4, 1, .ro, 0x0⟩, ⟨3, 1, .ro, 0x0⟩, ⟨2, 1, .ro, 0x0⟩, ⟨0, 2, .ro, 0x0⟩]⟩,
  /- ASSAY_BOOT_DETAIL -/ ⟨0x40004, [], [⟨8, 8, .ro, 0x0⟩, ⟨4, 2, .ro, 0x0⟩, ⟨0, 2, .ro, 0x0⟩]⟩,
  /- ASSAY_VER_S1 -/ ⟨0x40008, [], [⟨0, 32, .ro, 0x0⟩]⟩,
  /- ASSAY_VER_DRT -/ ⟨0x4000C, [], [⟨0, 32, .ro, 0x0⟩]⟩,
  /- ASSAY_MINVER -/ ⟨0x40010, [], [⟨0, 32, .ro, 0x0⟩]⟩,
  /- ASSAY_KEYSLOT -/ ⟨0x40014, [], [⟨4, 4, .ro, 0x0⟩, ⟨0, 4, .ro, 0x0⟩]⟩,
  /- ASSAY_BOOT_TIME -/ ⟨0x40018, [], [⟨0, 32, .ro, 0x0⟩]⟩,
  /- ASSAY_RECOV_CMD -/ ⟨0x40020, [], [⟨30, 2, .wo, 0x0⟩, ⟨0, 6, .wo, 0x0⟩]⟩,
  /- ASSAY_RECOV_STATUS -/ ⟨0x40024, [], [⟨24, 8, .ro, 0x0⟩, ⟨0, 3, .ro, 0x0⟩]⟩,
  /- ASSAY_RETRY -/ ⟨0x40028, [], [⟨0, 1, .ro, 0x0⟩]⟩,
  /- MB_CTRL -/ ⟨0x44000, [], [⟨0, 1, .wo, 0x0⟩]⟩,
  /- MB_STATUS -/ ⟨0x44004, [], [⟨24, 8, .ro, 0x0⟩, ⟨0, 2, .ro, 0x0⟩]⟩,
  /- TRUST_INTEGRITY -/ ⟨0x44030, [], [⟨0, 32, .rc, 0x0⟩]⟩,
  /- TRUST_LOCK_DENIED -/ ⟨0x44034, [], [⟨0, 32, .rc, 0x0⟩]⟩,
  /- TRUST_DBG_JTAG -/ ⟨0x44038, [], [⟨0, 32, .ro, 0x0⟩]⟩,
  /- TRUST_DBG_PF -/ ⟨0x4403C, [], [⟨0, 32, .ro, 0x0⟩]⟩,
  /- MB_NONCE -/ ⟨0x44010, [(4, 8)], [⟨0, 32, .ro, 0x0⟩]⟩,
  /- MB_REQ -/ ⟨0x42000, [(4, 1024)], [⟨0, 32, .rw, 0x0⟩]⟩,
  /- MB_RSP -/ ⟨0x43000, [(4, 1024)], [⟨0, 32, .ro, 0x0⟩]⟩,
  /- ASSAY_RECOV_PAGE -/ ⟨0x41000, [(4, 1024)], [⟨0, 32, .wo, 0x0⟩]⟩]

/-- The registers of the Rein block. -/
def regsRein : List RegDesc := [
  /- REIN_GAIT -/ ⟨0x20000, [], [⟨0, 2, .rw, 0x2⟩]⟩,
  /- REIN_CAP -/ ⟨0x20004, [], [⟨0, 1, .ro, 0x0⟩]⟩,
  /- REIN_PL_SUST -/ ⟨0x20008, [], [⟨0, 9, .rw, 0x136⟩]⟩,
  /- REIN_PL_FAST -/ ⟨0x2000C, [], [⟨0, 9, .rw, 0x174⟩]⟩,
  /- REIN_WINDOW -/ ⟨0x20010, [], [⟨0, 6, .rw, 0xA⟩]⟩,
  /- REIN_HOST_LIMIT -/ ⟨0x20014, [], [⟨0, 12, .rw, 0x47E⟩]⟩,
  /- REIN_SRC -/ ⟨0x20018, [], [⟨1, 7, .rw, 0x0⟩, ⟨0, 1, .rw, 0x0⟩]⟩,
  /- REIN_STATUS -/ ⟨0x20020, [], [⟨24, 8, .ro, 0x0⟩, ⟨3, 1, .ro, 0x0⟩, ⟨2, 1, .ro, 0x0⟩, ⟨1, 1, .w1c, 0x0⟩, ⟨0, 1, .w1c, 0x0⟩]⟩,
  /- REIN_FREQ -/ ⟨0x20024, [], [⟨16, 12, .ro, 0x0⟩, ⟨0, 12, .ro, 0x0⟩]⟩,
  /- REIN_P_FAST -/ ⟨0x20028, [], [⟨0, 16, .ro, 0x0⟩]⟩,
  /- REIN_P_SUST -/ ⟨0x2002C, [], [⟨0, 16, .ro, 0x0⟩]⟩,
  /- REIN_VCORE -/ ⟨0x20030, [], [⟨16, 16, .ro, 0x0⟩, ⟨0, 16, .ro, 0x0⟩]⟩,
  /- REIN_SLEEP -/ ⟨0x20040, [], [⟨0, 1, .wo, 0x0⟩]⟩,
  /- REIN_WAKE_TIMER -/ ⟨0x20044, [], [⟨0, 32, .rw, 0x0⟩]⟩,
  /- REIN_TR_n_COUNT -/ ⟨0x20100, [(16, 8)], [⟨0, 32, .ro, 0x0⟩]⟩,
  /- REIN_TR_n_US_LO -/ ⟨0x20104, [(16, 8)], [⟨0, 32, .ro, 0x0⟩]⟩,
  /- REIN_TR_n_US_HI -/ ⟨0x20108, [(16, 8)], [⟨0, 32, .ro, 0x0⟩]⟩,
  /- CURB_CTRL -/ ⟨0x28000, [], [⟨16, 8, .rw, 0x8⟩, ⟨8, 6, .rw, 0x28⟩, ⟨0, 1, .rw, 0x1⟩]⟩,
  /- CURB_LOST_T_t -/ ⟨0x28010, [(4, 8)], [⟨0, 32, .ro, 0x0⟩]⟩,
  /- CURB_LOST_U -/ ⟨0x28030, [], [⟨0, 32, .ro, 0x0⟩]⟩,
  /- CURB_DET_n -/ ⟨0x28100, [(4, 96)], [⟨16, 6, .ro, 0x28⟩, ⟨0, 16, .rc, 0x0⟩]⟩]

/-- The registers of the Therm block. -/
def regsTherm : List RegDesc := [
  /- THERM_TJ -/ ⟨0x30000, [], [⟨16, 5, .ro, 0x0⟩, ⟨0, 12, .ro, 0x0⟩]⟩,
  /- THERM_THR -/ ⟨0x30004, [], [⟨0, 8, .rw, 0x64⟩]⟩,
  /- THERM_STATUS -/ ⟨0x30008, [], [⟨2, 1, .w1c, 0x0⟩, ⟨1, 1, .ro, 0x0⟩, ⟨0, 1, .ro, 0x0⟩]⟩,
  /- THERM_TRIP_REC -/ ⟨0x30010, [], [⟨31, 1, .w1c, 0x0⟩, ⟨16, 5, .ro, 0x0⟩, ⟨0, 12, .ro, 0x0⟩]⟩,
  /- THERM_TRIP_TICK_LO -/ ⟨0x30014, [], [⟨0, 32, .ro, 0x0⟩]⟩,
  /- THERM_TRIP_TICK_HI -/ ⟨0x30018, [], [⟨0, 32, .ro, 0x0⟩]⟩,
  /- THERM_SENSOR_n -/ ⟨0x30100, [(4, 32)], [⟨31, 1, .ro, 0x0⟩, ⟨0, 12, .ro, 0x0⟩]⟩]

/-- The registers of the Ras block. -/
def regsRas : List RegDesc := [
  /- RAS_CTRL -/ ⟨0x800000, [], [⟨8, 5, .rw, 0x0⟩, ⟨0, 8, .rw, 0x8⟩]⟩,
  /- RAS_STATUS -/ ⟨0x800004, [], [⟨3, 1, .w1c, 0x0⟩, ⟨2, 1, .w1c, 0x0⟩, ⟨1, 1, .w1c, 0x0⟩, ⟨0, 1, .w1c, 0x0⟩]⟩,
  /- RAS_GUARD_p -/ ⟨0x800010, [(4, 8)], [⟨2, 8, .rw, 0x2⟩, ⟨0, 2, .rw, 0x1⟩]⟩,
  /- RAS_CMD -/ ⟨0x800040, [], [⟨29, 3, .wo, 0x0⟩, ⟨26, 3, .wo, 0x0⟩, ⟨0, 8, .wo, 0x0⟩]⟩,
  /- RAS_CMD_RESULT -/ ⟨0x800044, [], [⟨30, 2, .ro, 0x0⟩, ⟨0, 8, .ro, 0x0⟩]⟩,
  /- RAS_ECC_CE_m -/ ⟨0x800100, [(8, 10)], [⟨0, 32, .rc, 0x0⟩]⟩,
  /- RAS_ECC_UE_m -/ ⟨0x800104, [(8, 10)], [⟨0, 32, .rc, 0x0⟩]⟩,
  /- RAS_UE_LOG0 -/ ⟨0x800200, [], [⟨28, 4, .ro, 0x0⟩, ⟨20, 8, .ro, 0x0⟩]⟩,
  /- RAS_UE_LOG1 -/ ⟨0x800204, [], [⟨0, 32, .ro, 0x0⟩]⟩,
  /- RAS_UE_LOG2 -/ ⟨0x800208, [], [⟨0, 16, .ro, 0x0⟩]⟩,
  /- RAS_UE_LOG3 -/ ⟨0x80020C, [], [⟨0, 32, .ro, 0x0⟩]⟩,
  /- RAS_LMAP_n -/ ⟨0x800400, [(4, 64)], [⟨8, 1, .ro, 0x1⟩, ⟨4, 3, .ro, 0x0⟩, ⟨0, 4, .ro, 0x0⟩]⟩,
  /- RAS_TEAM_STATE -/ ⟨0x800500, [], [⟨0, 4, .ro, 0x1⟩, ⟨4, 4, .ro, 0x1⟩, ⟨8, 4, .ro, 0x1⟩, ⟨12, 4, .ro, 0x1⟩, ⟨16, 4, .ro, 0x1⟩, ⟨20, 4, .ro, 0x1⟩, ⟨24, 4, .ro, 0x1⟩, ⟨28, 4, .ro, 0x1⟩]⟩,
  /- RAS_DECGRP_STATE -/ ⟨0x800504, [], [⟨0, 4, .ro, 0x1⟩, ⟨4, 4, .ro, 0x1⟩, ⟨8, 4, .ro, 0x1⟩, ⟨12, 4, .ro, 0x1⟩]⟩,
  /- RAS_HCC_STATE -/ ⟨0x800508, [], [⟨0, 4, .ro, 0x1⟩, ⟨4, 4, .ro, 0x1⟩, ⟨8, 4, .ro, 0x1⟩, ⟨12, 4, .ro, 0x1⟩]⟩,
  /- RAS_LOG_STATUS -/ ⟨0x800600, [], [⟨8, 24, .ro, 0x0⟩, ⟨0, 4, .ro, 0x0⟩]⟩,
  /- RAS_AUDIT_LAST -/ ⟨0x800610, [], [⟨28, 4, .ro, 0x0⟩, ⟨27, 1, .ro, 0x0⟩, ⟨0, 27, .ro, 0x0⟩]⟩,
  /- RAS_CHK_TRANSIENT -/ ⟨0x800060, [], [⟨0, 32, .rc, 0x0⟩]⟩,
  /- RAS_CHK_PERSIST -/ ⟨0x800064, [], [⟨0, 32, .rc, 0x0⟩]⟩,
  /- RAS_CHK_SKIP -/ ⟨0x800068, [], [⟨0, 32, .rc, 0x0⟩]⟩,
  /- RAS_CHK_REPLAY_CYC -/ ⟨0x80006C, [], [⟨0, 32, .rc, 0x0⟩]⟩,
  /- RAS_UNPOP_WR -/ ⟨0x800070, [], [⟨0, 32, .rc, 0x0⟩]⟩,
  /- RAS_ASSAY_AF -/ ⟨0x800074, [], [⟨0, 32, .rc, 0x0⟩]⟩,
  /- RAS_AUDIT_COUNT -/ ⟨0x800078, [], [⟨0, 32, .rc, 0x0⟩]⟩,
  /- RAS_FENCE_LOG -/ ⟨0x801000, [(4, 256)], [⟨0, 32, .ro, 0x0⟩]⟩]

/-- The registers of the Dbg block. -/
def regsDbg : List RegDesc := [
  /- DBG_SESSION_CMD -/ ⟨0x900000, [], [⟨30, 2, .wo, 0x0⟩, ⟨0, 8, .wo, 0x0⟩]⟩,
  /- DBG_SESSION_STATUS -/ ⟨0x900004, [], [⟨31, 1, .ro, 0x0⟩, ⟨30, 1, .ro, 0x0⟩, ⟨29, 1, .ro, 0x0⟩, ⟨8, 8, .ro, 0x0⟩, ⟨0, 8, .ro, 0x0⟩]⟩,
  /- DBG_STATUS -/ ⟨0x900008, [], [⟨1, 1, .w1c, 0x0⟩, ⟨0, 1, .w1c, 0x0⟩]⟩,
  /- PROF_CTRL -/ ⟨0x900020, [], [⟨1, 5, .rw, 0x8⟩, ⟨0, 1, .rw, 0x0⟩]⟩,
  /- PROF_BASE_LO -/ ⟨0x900024, [], [⟨6, 26, .rw, 0x0⟩]⟩,
  /- PROF_BASE_HI -/ ⟨0x900028, [], [⟨0, 3, .rw, 0x0⟩]⟩,
  /- PROF_WRITTEN -/ ⟨0x90002C, [], [⟨0, 32, .rc, 0x0⟩]⟩]

/-- The registers of the RingTable block. -/
def regsRingTable : List RegDesc := [
  /- RING -/ ⟨0x100000, [(4, 262144)], [⟨0, 32, .rw, 0x0⟩]⟩]

end Sys2Proof.Machine
end

