-- ==== Sys2Proof/Machine/State.lean ====
section
/-!
DEFINITION. The state of the device, as plain data. The CFG registers are one sparse register file
(`State.regs`, by CFG offset; Machine/RegMap.lean holds their fields and reset values); what the spec
gives a unit beside its registers is in the structures below. An unlisted entry of a table reads as
the default given where the table is read, which is its value at reset.
-/
namespace Sys2Proof.Machine

/-! ### Tensor cores (R59 to R180) -/

/-- A data queue (Table XM-2, R102 to R104): its descriptor; the ring offset in bytes of its head
element; and its reservations, oldest first, each with its bytes and whether it has been written. The
committed elements are the written ones before the first that is not (R103). -/
structure Queue where
  depth : Nat := 0
  esize : Nat := 0
  zc : Bool := false
  base : Nat := 0
  head : Nat := 0
  els : List (Nat × Bool) := []
deriving DecidableEq, Repr

/-- An enqueued engine command: its four words, its command count, the PC of its ISSUE and the core
that issued it (R110, R113). -/
structure Cmd where
  w0 : W64
  w1 : W64
  w2 : W64
  w3 : W64
  cnt : Nat
  pc : Nat
  core : Nat
deriving DecidableEq, Repr

/-- A command that its engine has begun: how far it has come, what it has counted, and what it has
read ahead. `prog` counts rows per array (R68). `fixed` says that the checks made at the first row
have passed (R143). `full` says that all it does but its completion is done. -/
structure Active where
  cmd : Cmd
  done : Nat := 0
  aux : Nat := 0
  sat : Nat := 0
  full : Bool := false
  prog : List Nat := []
  buf : List Nat := []
  fixed : Bool := false
deriving DecidableEq, Repr

/-- A Crupper configuration slot: words 0 to 4 of the parameter block it was written from (R75,
R150). The reset contents enable stage 8 alone, with OFMT = ACC. -/
structure CrSlot where
  w0 : W64 := 0x80F0000000000000#64
  w1 : W64 := 0#64
  w2 : W64 := 0#64
  w3 : W64 := 0#64
  w4 : W64 := 0#64
deriving DecidableEq, Repr

/-- FAULT_CAUSE and FAULT_INFO, field by field (Tables XM-10 and XM-11), and the place of the data that
an UNCORRECTABLE_ECC or INTEGRITY fault met (R345, R459). -/
structure FaultRec where
  reason : Nat := 0
  source : Nat := 0
  valid : Bool := false
  more : Nat := 0
  cmdcnt : Nat := 0
  tag : Nat := 0
  pc : Nat := 0
  detail : Nat := 0
  obj : Nat := 0
  off : Nat := 0
deriving DecidableEq, Repr

/-- What a vector operation in flight will do when it lands (R165). -/
inductive Landing where
  | vreg (r : Nat) (lanes : List W32)
  | areg (r : Nat) (v : W32)
  | store (addr : Nat) (bytes : List Nat)
  | push (q : Nat) (bytes : List Nat)
deriving DecidableEq, Repr

/-- A vector operation in flight: the vector cycle in which it lands, and its effect. Flights stand
in issue order. -/
structure Flight where
  land : Nat
  eff : Landing
deriving DecidableEq, Repr

/-- A loop level (R159, R172): its start and end bundle and the passes that remain after this one. -/
structure VLoop where
  start : Nat
  stop : Nat
  left : Nat
deriving DecidableEq, Repr

/-- The Vector engine (R159): registers by 64 * register + lane, address registers, bundle counter,
loop levels (innermost first), the operations in flight, and until which vector cycle each unit of
R167 is held. `cyc` counts the cycles in which the engine is not held; `ended` says VEND has issued. -/
structure Vec where
  v : Tbl W32 := []
  a : Tbl W32 := []
  bundle : Nat := 0
  loops : List VLoop := []
  cyc : Nat := 0
  flights : List Flight := []
  busy : Tbl Nat := []
  ended : Bool := false
deriving DecidableEq, Repr

/-- Where Guard stands on a core (R461 to R466): the row a replay runs again, and whether an injected
flip awaits the next checked row; the window of 1,024 ticks last counted in and its transients; and
the group counter of R462. -/
structure GuardSt where
  inject : Bool := false
  replay : Bool := false
  window : Nat := 0
  transients : Nat := 0
  group : Nat := 0
deriving DecidableEq, Repr

/-- A tensor core, as a physical slot holds it (R88, Table TC-1, Table XM-7). For the Dispatcher: the
jobs given to it in admission order; of the running one the cycles spent, CMDCNT at its start, its claims
on the progress counter with CMDCNT at each (2^32 stands for a claim that found it exhausted), its
commands by count and tag and whether each has completed, from the first that has not, and the last
command before those (R348); the active weight tile, which reads as zeros until one has been loaded, and the one that the
loader holds in the shadow buffer (R66); the jobs carried past the last edge, their C_c, the cycles run since that edge,
and E_c (R47). `bad` holds the uncorrectable errors that a scrub found in the core's own memories: class of Table RL-1 and
address. (DESIGN CHOICE, log 2) -/
structure Core where
  sregs : Tbl W64 := []
  pc : Nat := 0
  run : Bool := false
  faulted : Bool := false
  wait : Option (Nat × Nat) := none
  stopped : Bool := false
  stepping : Bool := false
  heldCmds : List Cmd := []
  epoch : Nat := 0
  ctag : Nat := 0
  auto : Bool := false
  cmdcnt : Nat := 0
  split : W64 := 0x0000001020402008#64
  storeTop : Nat := 0
  staticSize : Nat := 0
  argOff : Nat := 0
  unitMask : W64 := 0#64
  nInst : Nat := 0
  nBund : Nat := 0
  istore : Tbl W64 := []
  vim : Tbl (BitVec 128) := []
  fault : FaultRec := {}
  queues : Tbl Queue := []
  sems : Tbl Nat := []
  mq : List Cmd := []
  xq : List Cmd := []
  vq : List Cmd := []
  dq : List Cmd := []
  kq : List Cmd := []
  actM : Option Active := none
  actX : Option Active := none
  actV : Option Active := none
  actD : Option Active := none
  actK : Option Active := none
  landM : List Active := []
  landD : List Active := []
  handles : Tbl (List Nat) := []
  acc : Tbl W32 := []
  rowSum : Tbl W32 := []
  intHandles : List Nat := []
  weights : List Nat := []
  shadow : Option (List Nat) := none
  crs : Tbl CrSlot := []
  vec : Vec := {}
  guard : GuardSt := {}
  job : Option Nat := none
  jobQ : List Nat := []
  jobSpent : Nat := 0
  startCnt : Nat := 0
  claims : List (Nat × Nat) := []
  sent : List (Nat × Nat × Bool) := []
  front : Nat × Nat := (0, 0)
  carry : List Nat := []
  carryCost : Nat := 0
  ran : Nat := 0
  excess : Nat := 0
  outstanding : Nat := 0
  bad : List (Nat × Nat) := []
  retired : Bool := false
  retirePending : Bool := false
deriving DecidableEq, Repr

/-- A Tally counter (R258); the bitmap holds the claimed indices below 4,096 as set bits. -/
structure TallyCtr where
  epoch : Nat := 0
  limit : Nat := 0
  next : Nat := 0
  hwm : Nat := 0
  bitmap : Nat := 0
deriving DecidableEq, Repr

/-- A Team beside its cores: EQ and FQ with what their engines have begun, the Tally counters and
CFG writes held while the Team was gated, the gating count, and the trace buffer by entry (R62, R82,
R84, R258, R495). `busySeen` says that a request has reached it since the last snapshot began (R85); `sliceSeen` that since
the last edge one has reached its Pool slice, or a job has been at work there (R82). -/
structure Team where
  eq : List Cmd := []
  fq : List Cmd := []
  actE : Option Active := none
  actF : Option Active := none
  tally : Tbl TallyCtr := []
  heldCfg : List (Nat × W32) := []
  idleTicks : Nat := 0
  busySeen : Bool := false
  sliceSeen : Bool := false
  heldReq : Bool := false
  trace : Tbl (BitVec 128) := []
deriving DecidableEq, Repr

/-- A remote semaphore signal on its way, or its outcome on the way back (R256): sender, target,
semaphore, amount, and what the sender's fault record would hold. -/
structure Sig where
  src : Nat
  dst : Nat
  sem : Nat
  amount : Nat
  source : Nat
  cmdcnt : Nat
  tag : Nat
  pc : Nat
  overflow : Bool
deriving DecidableEq, Repr

/-! ### Objects (R268 to R279) -/

/-- A segment: its home (absent when R278 found none), its place in the Pool if it has one, and its
migration: `some (some a)` a promotion to Pool address `a`, `some none` a demotion. `renew` says that the home is new
and that the copy from the Pool to it, which R278 asks of a read-only segment, has not completed. -/
structure Seg where
  home : Option Nat := none
  pool : Option Nat := none
  move : Option (Option Nat) := none
  copied : Bool := false
  renew : Bool := false
deriving DecidableEq, Repr

/-- A loaded object (R268 to R273). `stage` is STATE of Table MS-3; `heat` is H and `touched` A of the
current tick; `freeing` names, per core, the last command issued before its FREE; `filled` says that
its fill has completed, and `keySlot` names the content key of a BOUND object. -/
structure Obj where
  stage : Nat := 0
  size : Nat := 0
  pin : Bool := false
  hint : Nat := 0
  bound : Bool := false
  ro : Bool := false
  teams : Nat := 0
  segs : List Seg := []
  heat : Nat := 0
  touched : Nat := 0
  lost : Bool := false
  filled : Bool := false
  freeing : List (Nat × Nat) := []
  keySlot : Nat := 0
deriving DecidableEq, Repr

/-- A content key slot of the memory crypto engine (R427): its key, the nonce prefix of its blocks, and
the address of the tag table. -/
structure KeySlot where
  live : Bool := false
  key : Nat := 0
  noncePrefix : Nat := 0
  tags : Nat := 0
deriving DecidableEq, Repr

/-! ### Jobs (R341 to R348) -/

/-- The end of a core's part of a job: the core, whether it halted normally, its first claimed tile that is
not complete, and the last command such that it and every earlier one of the part completed (R348). -/
structure PartEnd where
  core : Nat
  halted : Bool
  tile : Option Nat
  cmd : Nat × Nat
  ran : Bool := true
deriving DecidableEq, Repr

/-- A job: a decoded descriptor or frame template (Table HQ-4) and what has become of it. `seq` is the
SQ count or FRAME; `ring` the ring of its records; `cores` the logical cores it was given, and `ended` the
ends of their parts; `firstFault` the first fault of its own work and `stops` the cores that stopped before HALT, as they
happened; `stop` the reason of an outside stop; `holds` says that it holds its frame's slots (R317). -/
structure Job where
  part : Nat := 0
  ring : Nat := 0
  frame : Bool := false
  seq : Nat := 0
  cookie : W64 := 0#64
  irq : Bool := false
  strm : Bool := false
  kv : Bool := false
  sctx : Nat := 0
  cls : Nat := 0
  escMode : Nat := 0
  ncores : Nat := 0
  entry : Nat := 0
  argAddr : Nat := 0
  cost : Nat := 0
  reserve : Nat := 0
  epoch : Nat := 0
  pen : Bool := false
  pctr : Nat := 0
  tlimit : Nat := 0
  tstart : Nat := 0
  obj0 : Option Nat := none
  slot0 : Nat := 0
  slot1 : Nat := 0
  fbidx : Nat := 0
  kvLen : Nat := 0
  kvBase : Nat := 0
  guardMode : Nat := 0
  admitted : Bool := false
  admitTick : Nat := 0
  demand : Nat := 0
  cores : List Nat := []
  started : Bool := false
  ended : List PartEnd := []
  firstFault : Option FaultRec := none
  stops : List Nat := []
  stop : Option Nat := none
  nstop : Nat := 0
  cycles : Nat := 0
  throttle : Nat := 0
  overrun : Bool := false
  escalated : Bool := false
  exceeded : Bool := false
  kvRefused : Bool := false
  dupClaim : Bool := false
  concealed : Bool := false
  deferred : Bool := false
  suppressed : Bool := false
  holds : Bool := false
deriving DecidableEq, Repr

/-! ### Rings (R329 to R340) -/

/-- A descriptor in the descriptor buffer: its SQ count, its eight words, and the reason of its refusal
at decode; `fault` the reason and the address of a read that failed. -/
structure Desc where
  seq : Nat := 0
  words : List W64 := []
  refusal : Option Nat := none
  fault : Option (Nat × Nat) := none
deriving DecidableEq, Repr

/-- A ring beside its configuration entry: the descriptors taken and not yet applied; the records
reserved; the records written since the vector was last signalled; and the descriptors that an abort
discarded and that still wait for their record, each with its SQ count, COOKIE and IRQ, and the reason that
their records take (R338); `early` the doorbell writes that wait behind an enable. -/
structure Ring where
  taken : List Desc := []
  resv : Nat := 0
  unsent : Nat := 0
  dropped : List (Nat × W64 × Bool) := []
  dropReason : Nat := 0x22
  early : List (Nat × W32) := []
deriving DecidableEq, Repr

/-! ### Fences (R467 to R469) -/

/-- The fence of a domain: closed; its reset time has passed; it will not reopen; the tick of its last
FAILURE; and the entry of RAS_FENCE_LOG that holds its last report, once a snapshot has recorded it. -/
structure Fence where
  closed : Bool := false
  ready : Bool := false
  failed : Bool := false
  lastFail : Option Nat := none
  report : Option Nat := none
deriving DecidableEq, Repr

/-! ### Events latched for the next snapshot (R37 to R39, Table PT-1) -/

/-- An event that waits for the snapshot. -/
inductive Ev where
  /-- A write of KVA_CMD of a partition: OP and context (R242). -/
  | kvCmd (part op ctx : Nat)
  /-- A write of KVA_FREE_PUSH: size code and frame (R241). -/
  | kvPush (part sz frame : Nat)
  /-- A write of a KVA configuration register: its offset in the window and its value. -/
  | kvConfig (part off : Nat) (v : W32)
  /-- A Tally command of a Team with its argument values (R259). -/
  | tally (t op counter arg0 arg1 : Nat)
  /-- A STAB_CMD with its arguments (R270). -/
  | stab (op part first count : Nat)
  /-- Both channels of a GDDR6 pair are out of service because one has FAILED (R266, R278). -/
  | pairFail (pair : Nat)
  /-- A Pool slice was fenced (R278). -/
  | sliceLost (slice : Nat)
  /-- A write that sets EN of a ring: the upper half of word 0 of its entry (R330). -/
  | ringEnable (r : Nat) (v : W32)
  /-- DB_ABORT of a ring, or the FLR of its VF; the reason of its ABORTED records (R338). -/
  | ringAbort (r reason : Nat)
  /-- DISP_PLOAD_CMD LOAD of a partition (R94). -/
  | pload (part : Nat)
  /-- A CFG write that takes effect at the snapshot: offset and value. -/
  | cfgWrite (off : Nat) (v : W32)
  /-- Such a write from the management port (class 4). -/
  | mgmtWrite (off : Nat) (v : W32)
  /-- RAS_CMD: OP, DTYPE and INST (R477). -/
  | rasCmd (op dtype inst : Nat)
  /-- A fence closed: its report, by dword, is recorded (R42, R469). -/
  | fenceReport (dtype inst : Nat) (words : List W32)
  /-- A core that a persistent mismatch, or too many transients, retires (R466). -/
  | retire (n : Nat)
  /-- A device reset request: the FLR of the PF, or the management port's (R468). -/
  | deviceReset
  | coreFault (slot : Nat)
  | ptpLost
  | timer (n : Nat)
  /-- VIS_CTX_CMD: ACTIVATE (1) or DEACTIVATE (2) of a stream context (R287). -/
  | visCmd (op n : Nat)
  /-- A write of a live field of an ACTIVE stream context: dword and value (R286). -/
  | ctxLive (n dword : Nat) (v : W32)
  /-- A fabric control message: its sequence number, the member, TYPE, ARG and payload. -/
  | fabMsg (seq src typ arg : Nat) (payload : List Nat)
  /-- The device's own arrival at the barrier of a tick (R375). -/
  | fabArrive (tick : Nat)
  /-- A change of a fabric port, or a flow that is DOWN, is reported (R365, R366). -/
  | fabReport
  /-- An Assay mailbox operation that has passed its checks: OP and argument bytes (R416). -/
  | mbox (op : Nat) (args : List Nat)
  /-- A TDI takes a state (R424). -/
  | tdi (v st : Nat)
  /-- DBGACC enters the JTAG instruction register, or leaves it (R430, R489). -/
  | jtagAttach
  | jtagDetach
  /-- DBG_SESSION_CMD OPEN with its SCOPE, or CLOSE (R490). -/
  | pfOpen (scope : Nat)
  | pfClose
  /-- A live DRT update: 1 the new text is locked, 2 MOVE of a partition (R486, R487). -/
  | live (op p : Nat)
  /-- A frame is ready: context, number, buffer, slots, and whether it is concealed (R319). -/
  | frameReady (n num fb slot0 slot1 : Nat) (concealed : Bool)
deriving DecidableEq, Repr

/-! ### Partitions (R412 to R414) -/

/-- A partition: whether it exists, and whether it is being scrubbed after its removal; the Teams it owns
(bit t for Team t); its GDDR6 range in MiB; its stream-context share; the words of its loaded program and
whether a load is in progress; and what its Hallmark reports (Table TR-6), digests as numbers. -/
structure Part where
  live : Bool := false
  scrub : Bool := false
  teams : Nat := 0
  gddrBase : Nat := 0
  gddrSize : Nat := 0
  sctxFirst : Nat := 0
  sctxCount : Nat := 0
  nInst : Nat := 0
  loading : Bool := false
  hseq : Nat := 0
  dbgSessions : Nat := 0
  progLoads : Nat := 0
  imports : Nat := 0
  progCurrent : Nat := 0
  progChain : Nat := 0
  weightChain : Nat := 0
deriving DecidableEq, Repr

/-! ### PACE (R34 to R58) -/

/-- One PTP instance (R49, R50): consecutive Sync messages within 250 ns, whether it is LOCKED, and
its last offset. -/
structure PtpPort where
  good : Nat := 0
  locked : Bool := false
  offset : Int := 0
deriving DecidableEq, Repr

/-- What the PACE block holds beside its registers. `waiting` says that ENABLE was accepted and the
first edge has not come; `ticking` that edges run; `stopping` that a stop is pending (R57). `tp` is
the period of the current tick in microseconds; `edge` the device time of the last edge, or of the write
of ENABLE before a LOCAL first edge; `ready` when a PTP start found its port LOCKED; `used`
the last tick number used since cold reset or wake (R56); `slew` the offset still to be removed, in
ns; `stepHold` that HOLDOVER was entered by R52; `lostAt` when the last PTP instance lost lock, and `held` that HOLD_MS has elapsed since; `misses` the
PACE_IN edges missed in a row; `accepted` when the first PACE_IN edge was accepted; `pulses` the PACE_OUT
pulses driven. -/
structure Pace where
  waiting : Bool := false
  ticking : Bool := false
  stopping : Bool := false
  tp : Nat := 10000
  edge : Nat := 0
  ready : Option Nat := none
  used : Option Nat := none
  slew : Int := 0
  stepHold : Bool := false
  lostAt : Option Nat := none
  held : Bool := false
  misses : Nat := 0
  accepted : Option Nat := none
  pulses : Nat := 0
  ports : Tbl PtpPort := []
deriving DecidableEq, Repr

/-! ### The vision front end (R284 to R323) -/

/-- A frame of a raw port: its context, number and buffer where it has them; the size, the format and the
parameter set it opened with; its closed lines, oldest first, at most HEIGHT; the pixels of the open line,
which has lost some when `cut`; how many lines have closed with pixels; its flags and counts. -/
structure RawFrame where
  ctx : Option Nat := none
  num : Nat := 0
  fb : Option Nat := none
  w : Nat := 0
  h : Nat := 0
  fmt : Nat := 0
  set : Tbl W32 := []
  lines : List (List Nat) := []
  cur : Option (List Nat) := none
  cut : Bool := false
  count : Nat := 0
  flags : Nat := 0
  short : Nat := 0
  long : Nat := 0
  pad : Nat := 0
  extra : Nat := 0
  time : Nat := 0
deriving DecidableEq, Repr

/-- A raw port beside its registers: the frame in capture, the closed frames that its ISP pipeline has not
finished, oldest first, and its active ISP parameter set by word. -/
structure RawPort where
  frame : Option RawFrame := none
  isp : List RawFrame := []
  set : Tbl W32 := []
deriving DecidableEq, Repr

/-- A frame that has its number and has not its record (R319): what Table VF-11 will say of it, and the
Swage outputs neither written nor skipped. `done` says that it is complete in its buffer. -/
structure VFrame where
  ctx : Nat := 0
  num : Nat := 0
  time : Nat := 0
  rtpTs : Nat := 0
  fb : Nat := 0xFF
  flags : Nat := 0
  short : Nat := 0
  long : Nat := 0
  pad : Nat := 0
  extra : Nat := 0
  width : Nat := 0
  height : Nat := 0
  slot0 : Nat := 0xFF
  slot1 : Nat := 0xFF
  xoff : Nat := 0
  yoff : Nat := 0
  xmul : Nat := 0
  ymul : Nat := 0
  left : Nat := 0
  done : Bool := false
deriving DecidableEq, Repr

/-- A packet in the jitter ring: its extended sequence number, the bytes of its payload, and the 64-byte cells of the ring that
hold it. -/
structure Pkt where
  seq : Nat := 0
  len : Nat := 0
  cells : List Nat := []
deriving DecidableEq, Repr

/-- An access unit in the jitter ring (R304 to R306): its timestamp; the packets held; the sequence number of its marker packet; when its first packet arrived. `stage`
is 0 while it collects, 1 when complete, 2 when released. -/
structure AccessUnit where
  ts : Nat := 0
  pkts : List Pkt := []
  marker : Option Nat := none
  firstAt : Nat := 0
  stage : Nat := 0
  num : Nat := 0
  time : Nat := 0
deriving DecidableEq, Repr

/-- What a stream context holds beside its descriptor. `waking` says that its ACTIVATE was accepted and waits
for its decoder group; then the frame buffers allocated and not released, the one last allocated, those that
decoder references use, the size of the frame in each buffer, the buffer of the latest frame decoded, and the slots held of
each output. For ingest: the highest extended sequence number
and the SSRC received; the missing numbers with the time of the first later packet; the numbers declared lost;
the units held, in sequence order; the timestamps of units released, discarded or damaged, with a sequence
number of each; the bytes in use of the jitter ring and where it is written next. For decoding: no reference
yet; the sequence numbers of discarded units since a random-access point; frames lost with their decoder; the parameter sets are to be read. For the
encoder: the ring offset and the pictures coded. -/
structure Sctx where
  waking : Bool := false
  held : List Nat := []
  lastFb : Nat := 0xFF
  refs : List Nat := []
  sizes : Tbl (Nat × Nat) := []
  latest : Option Nat := none
  slots0 : List Nat := []
  slots1 : List Nat := []
  high : Option Nat := none
  ssrc : Nat := 0
  missing : List (Nat × Nat) := []
  lost : List Nat := []
  units : List AccessUnit := []
  gone : List (Nat × Nat) := []
  used : Nat := 0
  put : Nat := 0
  noRef : Bool := true
  drops : List Nat := []
  decLost : Bool := false
  needPs : Bool := true
  encPos : Nat := 0
  encCount : Nat := 0
deriving DecidableEq, Repr

/-- An access unit in decode: its context and number, whether it is concealed, and what the decoder has read: the parameter
sets where it read them, and the NAL units or OBU elements of the unit. -/
structure Decode where
  ctx : Nat := 0
  num : Nat := 0
  conceal : Bool := false
  params : List Nat := []
  stream : List (List Nat) := []
deriving DecidableEq, Repr

/-- A Swage job: a frame's context and number, and the output. -/
structure SwageJob where
  ctx : Nat := 0
  num : Nat := 0
  out : Nat := 0
deriving DecidableEq, Repr

/-- A picture for an encoder: its context, frame number, buffer and size. -/
structure EncJob where
  ctx : Nat := 0
  num : Nat := 0
  fb : Nat := 0
  w : Nat := 0
  h : Nat := 0
deriving DecidableEq, Repr

/-- A JPEG request: the address of its descriptor, the descriptor's words at submission, and whether the frame
buffer was free then. -/
structure JpegJob where
  addr : Nat := 0
  words : List W64 := []
  free : Bool := false
deriving DecidableEq, Repr

/-- The vision front end beside its registers: ports, contexts, frames, the access units released, by context
and timestamp in order; the units in decode by decoder; the power of each decoder group (0 gated, 1 powering,
2 on); Swage jobs waiting, and the job of each engine with the profile it began with; the encoders' queues
and the picture each encodes; JPEG requests waiting and the one that runs. -/
structure Vision where
  ports : Tbl RawPort := []
  ctxs : Tbl Sctx := []
  frames : List VFrame := []
  released : List (Nat × Nat) := []
  decs : Tbl (Option Decode) := []
  groups : Tbl Nat := []
  swageQ : List SwageJob := []
  swages : Tbl (Option (SwageJob × List W32)) := []
  encQ : Tbl (List EncJob) := []
  encs : Tbl (Option EncJob) := []
  jpegQ : List JpegJob := []
  jpeg : Option JpegJob := none
deriving DecidableEq, Repr

/-! ### Power, droop and heat (R433 to R458) -/

/-- What the Rein controller, Curb and the thermal block hold beside their registers. Frequencies are in
MHz. `now` is the time in ns up to which the reasons' durations are counted; `sched` the scheduled
frequency that the voltage has followed and `ramp` that a raise waits for it; then the limits in force;
the last 100 power samples in mW, newest first; the samples of the current bucket; the buckets,
newest first, each as its mean times `den`; the time of the last revision of F_sust. `fastLow` counts the
samples below 0.95 PL_FAST in a row; `supplyAt` is when a supply source last showed; `hot` and `cool` count
thermal samples since the last step; `tripped` the sensors that read 115 degrees last; `counts` and `durs`
the events and the ns of each reason, `mask` the reasons in force and `inTick` those of the tick; and of
Curb the detectors whose stretch is active, the firings and the quiet intervals of each, and the cycles
lost in the tick by Team, 8 standing for the uncore. -/
structure Rein where
  now : Nat := 0
  sched : Nat := 0
  ramp : Bool := false
  fSust : Option Nat := none
  fFast : Option Nat := none
  fTherm : Option Nat := none
  fSupply : Option Nat := none
  samples : List Nat := []
  bucket : List Nat := []
  buckets : List Nat := []
  den : Nat := 100
  lastRev : Option Nat := none
  fastLow : Nat := 0
  supplyAt : Nat := 0
  hot : Nat := 0
  cool : Nat := 0
  tripped : List Nat := []
  counts : Tbl Nat := []
  durs : Tbl Nat := []
  mask : Nat := 0
  inTick : Nat := 0
  stretch : List Nat := []
  fires : Tbl Nat := []
  quiet : Tbl Nat := []
  lost : Tbl Nat := []
deriving DecidableEq, Repr

/-! ### The fabric (R354 to R384) -/

/-- A sequenced Harness message: its TYPE, its sequence number in its flow, the tick of its building, ARG and
payload; the plane it prefers, where a collective gives it one. -/
structure HMsg where
  typ : Nat := 0
  seq : Nat := 0
  tick : Nat := 0
  arg : Nat := 0
  payload : List Nat := []
  pref : Option Nat := none
deriving DecidableEq, Repr

/-- A message sent and not acknowledged: its retransmissions and the plane of its last transmission. -/
structure Unacked where
  msg : HMsg := {}
  tries : Nat := 0
  plane : Option Nat := none
deriving DecidableEq, Repr

/-- The flows to and from one peer (R362 to R366): the next sequence number to send, the credits in use, the
messages not acknowledged and those that wait for a credit, oldest first; the next number expected, the
messages held ahead of a gap; the messages received since the last ACK; the credits to be returned; and of each
plane the timeouts in a row and whether it is avoided. -/
structure Flow where
  txNext : Nat := 1
  spent : Nat := 0
  unacked : List Unacked := []
  waiting : List HMsg := []
  rxNext : Nat := 1
  held : List HMsg := []
  unseen : Nat := 0
  owed : Nat := 0
  down : Bool := false
  timeouts : Tbl Nat := []
  avoid : List Nat := []
deriving DecidableEq, Repr

/-- The collective that runs (R379 to R381): its words; the members it sends to; the planes in use when it began;
the bytes or regions that have arrived; and the chunks received in an ALLREDUCE by offset and length. -/
structure Collective where
  words : List W64 := []
  targets : List Nat := []
  planes : Nat := 1
  got : Nat := 0
  regions : Nat := 0
  chunks : List (Nat × Nat) := []
deriving DecidableEq, Repr

/-- What the fabric block holds beside its registers: the flow with each peer; the Harness frames transmitted,
by plane and link of its port, oldest first; of the job the live members, the JOINs applied (member, digest, frequency), its first
tick, the next barrier due and the arrivals by tick, the leaves by member and effective tick, the device's own
leave, the frequency in its JOIN; the reports (tick, member, MHz), the last report of each member and the tick
whose FANN the leader owes; the announcements (effective tick, TP_US, MHz) and the TP_US to announce; a JFAULT
applied in this snapshot; whether the barrier due has timed out; the job number whose flows have closed; the
collectives queued and what the first of them has done once it runs, the operations begun in the job, the KIND 1 barriers applied (OPID,
member), the DATA held for an operation not begun (member and message), and the OPIDs of operations that DATA for a bad destination ended. `moved` names the ports whose ingest
addresses the other port has taken; `toHost` the frames passed to the host cores, by port. -/
structure Fab where
  flows : Tbl Flow := []
  wire : List (Nat × Nat × List Nat) := []
  live : Nat := 0
  joins : List (Nat × Nat × Nat) := []
  k0 : Nat := 0
  bar : Nat := 0
  arrivals : Tbl Nat := []
  leaves : List (Nat × Nat) := []
  ownLeave : Option Nat := none
  ownMhz : Nat := 0
  reports : List (Nat × Nat × Nat) := []
  lastReport : Tbl Nat := []
  fannTick : Option Nat := none
  fanns : List (Nat × Nat × Nat) := []
  newTp : Nat := 0
  jfault : Option (Nat × Nat) := none
  timedOut : Bool := false
  closed : Option Nat := none
  ops : List (List W64) := []
  running : Option Collective := none
  opCount : Nat := 0
  opBars : List (Nat × Nat) := []
  parked : List (Nat × HMsg) := []
  spoiled : List Nat := []
  moved : List Nat := []
  toHost : List (Nat × List Nat) := []
deriving DecidableEq, Repr

/-! ### Start, trust, management and debug (R385 to R432, R478 to R498) -/

/-- The wake record (R408): the set booted; of stage 1, the Teamster microcode, the vector microcode and the DRT
the flash offset and the digest of header and body as copied. -/
structure WakeRec where
  set : Nat := 0
  offs : List Nat := []
  digests : List Nat := []
deriving DecidableEq, Repr

/-- What the AON domain holds beside its registers: the wake record; the image sets tried and their codes, in
order; whether the firmware has written ASSAY_RETRY; whether the GDDR6 training values are kept; the device's
fence report, by dword; the corrected and uncorrectable errors that reads have cleared from the counters. -/
structure Aon where
  wake : Option WakeRec := none
  tried : List (Nat × Nat) := []
  retry : Bool := false
  trained : Bool := false
  report : List W32 := []
  ceRead : Nat := 0
  ueRead : Nat := 0
deriving DecidableEq, Repr

/-- An image that runs: its BODY_DIGEST and VERSION, the address and length of its locked text (the DRT's), and its
on-chip copy (R397): the header, and the body where it is not in host-core memory. Stage 1 lies in the Assay SRAM from
0x1001_0000; a microcode body is what the store of every core holds, spares included, write-locked until the next reset
(R400). -/
structure Image where
  digest : Nat := 0
  version : Nat := 0
  text : Nat := 0
  len : Nat := 0
  header : List Nat := []
  body : List Nat := []
deriving DecidableEq, Repr

/-- A bundle import that copies (R427): the partition and the object, the address of the bundle, the content key,
and the bytes of its header; `ok` says that the copy has passed and awaits the edge. -/
structure Import where
  part : Nat := 0
  obj : Nat := 0
  addr : Nat := 0
  key : Nat := 0
  hdr : List Nat := []
  ok : Bool := false
deriving DecidableEq, Repr

/-- A bound set of a partition, as its Hallmark lists it: object, BUNDLE_ID and PLAIN_DIGEST. -/
structure BoundSet where
  part : Nat := 0
  obj : Nat := 0
  bundle : Nat := 0
  digest : Nat := 0
deriving DecidableEq, Repr

/-- The Assay core beside its registers: the stage 1 window of its SRAM, by offset; the accepted images (stage
1, Teamster microcode, vector microcode, DRT); the CDI, which fills the CDI page; whether reads of the UDS are blocked
and the protection map of Table AS-8 is locked (R399); the base of the window onto device physical space (R25); whether
the protected flash region is locked; the
snapshot; HALLMARK requests that wait for the snapshot, by their argument bytes. (DESIGN CHOICE, log 2) -/
structure Assay where
  window : Tbl Byte := []
  images : List Image := []
  cdi : Nat := 0
  udsBlocked : Bool := false
  mapLocked : Bool := false
  winBase : Nat := 0
  locked : Bool := false
  copying : Option Import := none
  sets : List BoundSet := []
  hseq : Nat := 0
  shown : List Nat := []
  partShown : Tbl (List Nat) := []
  asked : List (List Nat) := []
deriving DecidableEq, Repr

/-- The host cores beside their registers: the lines of the shared L2 cache (address, bytes, whether dirty); the
carve-out change or the cache operation in progress; and of a live update the image whose text is locked beside the
running one's (the new one, and from the snapshot that locks it the old one), and the image set it came from; and where
each hart started, with its a0 and a1 (R403). -/
structure HostCores where
  lines : List (Nat × List Nat × Bool) := []
  carve : Option W32 := none
  op : Nat := 0
  next : Option Image := none
  nextSet : Nat := 0
  harts : List (Nat × Nat × Nat) := []
deriving DecidableEq, Repr

/-- An SPDM responder path: how far negotiation has come (0 nothing, 1 version, 2 capabilities, 3 algorithms);
its sessions, and whether FINISH has established each. -/
structure Spdm where
  stage : Nat := 0
  sessions : List (Nat × Bool) := []
deriving DecidableEq, Repr

/-- An IDE stream (R423): the functions that it covers, first and last; the keys programmed (1 more than each, 0 where
there is none), by 2 * (8 * key set + sub-stream) + direction; and the key sets in use, by the same number. -/
structure Ide where
  lo : Nat := 0
  hi : Nat := 0
  keys : Tbl Nat := []
  use : List Nat := []
deriving DecidableEq, Repr

/-- A firmware update (R484): 0 none, 1 requested, 2 table passed, 3 components offered, 4 verified, 5 applied;
the components offered, with the bytes received of each. -/
structure Update where
  stage : Nat := 0
  comps : List (Nat × Nat) := []
deriving DecidableEq, Repr

/-- The management endpoint (R478 to R485): its endpoint ID; the event receiver; the last refresh of each sensor (1
more than its value, or 0 where it is unavailable) and what its events go by; the events sent (sensor and state), the
last answer (completion code and data); the update; the straps. -/
structure Mgmt where
  eid : Nat := 0
  receiver : Option Nat := none
  sensors : Tbl Nat := []
  seen : Tbl Nat := []
  sent : List (Nat × Nat) := []
  answer : Nat × List Nat := (0, [])
  upd : Update := {}
  mode : Bool := false
  address : Nat := 0
deriving DecidableEq, Repr

/-- The TAP (R488, R489): the instruction register, the boundary-scan register, whether the pads are driven from
it or held in high impedance, the data register last shifted out, and the last DBGACC access. -/
structure Jtag where
  ir : Nat := 1
  cells : List Bool := []
  dr : Nat := 0
  addr : Nat := 0
  data : Nat := 0
  status : Nat := 0
  waits : Option (Nat × Option Nat) := none
deriving DecidableEq, Repr

/-- How far the device is up (R385, R406, R407, R453, R454): held in cold reset, started, halted by
the boot, in recovery, in deep sleep, or stopped by the thermal trip. (DEDUCED, log 51) (DESIGN CHOICE, log 115) -/
inductive Phase where
  | coldReset
  | up
  | halted
  | recovery
  | deepSleep
  | tripped
deriving DecidableEq, Repr

/-! ### The outcome reasons of a step -/

/-- Why the machine cannot go on at all. (DEDUCED, log 8) -/
inductive Fault where
  /-- The block has stopped for good. Safe. No command of this model raises it: nothing in the spec stops the block so
  that no command can follow. A command to a unit in reset reaches nothing and changes nothing, and a fault of a program
  is a next state (R122, R385). (DEDUCED, log 8) -/
  | stopped
deriving DecidableEq, Repr

/-- Why a command has no effect to give. -/
inductive Refusal where
  /-- The command has no meaning in this model yet. Safe. -/
  | notModelled (mnemonic : String)
  /-- The command is an event of the device itself that cannot occur in this state (a core that is not running executes
  no instruction, an empty queue has no head, a unit in reset completes nothing). Safe: the hardware has no such step here.
  (DESIGN CHOICE, log 9) -/
  | cannotOccur
  /-- The instruction at the core's PC is another one than the command names. Safe.
  (DESIGN CHOICE, log 9) -/
  | otherInstruction
  /-- The command names a unit, an entry or a port that the device does not have. Safe. -/
  | noSuchUnit
deriving DecidableEq, Repr

/-! ### The state -/

/-- The state of the device. -/
structure State where
  /-- The commands that wait, first in first out. -/
  pending : List Instr := []
  /-- CFG registers by offset (R29); an unlisted one holds its reset value. -/
  regs : Tbl W32 := []
  /-- Device physical memory by address (R25); an unlisted byte reads 0. -/
  mem : Memory := []
  /-- The model's own count of free values used; nothing of the device reads it. -/
  fresh : Nat := 0
  /-- Events latched for the next snapshot, in order of arrival. -/
  events : List Ev := []
  phase : Phase := .coldReset
  pace : Pace := {}
  /-- Tensor cores by physical slot, 9 to a Team. -/
  cores : Tbl Core := []
  teams : Tbl Team := []
  /-- Loaded objects, by 65,536 * partition + ID. -/
  objs : Tbl Obj := []
  /-- The object IDs of the last STAB_CMD LOAD applied: partition, first and count (STAB_RESULT). -/
  stabLoad : Option (Nat × Nat × Nat) := none
  keys : Tbl KeySlot := []
  /-- Where the last uncorrectable or unauthentic data was met: object and offset (R345, R459). -/
  errPlace : Nat × Nat := (0, 0)
  /-- The copies of the static areas that program loads keep: by partition, address and length (R95). -/
  copies : Tbl (Nat × Nat) := []
  /-- Retrainings of a GDDR6 channel that failed in succession (R266). -/
  gddrFails : Tbl Nat := []
  /-- Free KV frames, by 16 * partition + size code (R241). -/
  kvFree : Tbl (List Nat) := []
  /-- KV frames pushed, and pages that contexts hold, by 16 * partition + size code, as the audit counts them (R470). -/
  kvPushes : Tbl Nat := []
  kvTaken : Tbl Nat := []
  /-- KV contexts (4,096 * partition + context) on which a RING reuse waits (Table AK-9). -/
  kvReuse : List Nat := []
  /-- Words and granules that hold an uncorrectable error: address and length (R31, R264). -/
  ue : List (Nat × Nat) := []
  /-- TDI states by VF: 0 CONFIG_UNLOCKED, 1 CONFIG_LOCKED, 2 RUN, 3 ERROR (R424). -/
  tdis : Tbl Nat := []
  /-- Jobs admitted and not complete, by number. -/
  jobs : Tbl Job := []
  /-- The number the next job takes. -/
  nextJob : Nat := 0
  /-- STANDARD jobs deferred at the last edge, in order. -/
  deferred : List Nat := []
  rings : Tbl Ring := []
  /-- MSI-X tables: by 128 * function + 4 * vector + dword (R328). -/
  msix : Tbl W32 := []
  /-- Interrupt messages sent: function and vector, oldest first. -/
  irqs : List (Nat × Nat) := []
  /-- The frame-job epoch count (R347). -/
  frameEpoch : Nat := 1
  /-- Fences by 256 * DTYPE + instance. -/
  fences : Tbl Fence := []
  /-- Partitions by number. -/
  parts : Tbl Part := []
  /-- The budget of each logical core for the current tick (R47). -/
  budget : Tbl Int := []
  /-- The profile ring (R494): the entry written next; and by CFG offset of a counter what it held at the last edge,
  less what reads have cleared since. -/
  profNext : Nat := 0
  profBase : Tbl Int := []
  /-- Remote signals on their way, and outcomes on their way back, oldest first. -/
  sigs : List Sig := []
  outcomes : List Sig := []
  rein : Rein := {}
  vis : Vision := {}
  fab : Fab := {}
  /-- The fuse bytes (R391); an unlisted one is clear. -/
  fuses : Tbl Nat := []
  /-- The fuse bytes as the ROM read them at the last start: the checks of the running boot go by these (R392). -/
  bootFuses : Tbl Nat := []
  /-- The boot flash, by offset; an unlisted byte is erased, 0xFF. -/
  flash : Tbl Byte := []
  aon : Aon := {}
  assay : Assay := {}
  hcore : HostCores := {}
  /-- SPDM responder paths: 0 to 63 the DOE of function v, 64 the management port. -/
  spdm : Tbl Spdm := []
  /-- IDE streams: 0 to 15 selective, 16 the link stream. -/
  ide : Tbl Ide := []
  /-- The nonce of a TDI's LOCK. -/
  tdiNonce : Tbl Nat := []
  /-- The last answer over a DOE mailbox: its function, and its code and data. -/
  doe : Nat × Nat × List Nat := (0, 0, [])
  mgmt : Mgmt := {}
  jtag : Jtag := {}
deriving DecidableEq, Repr

/-- The device right after cold reset. (DESIGN CHOICE, log 1) (DESIGN CHOICE, log 2) (DEDUCED, log 51) -/
def State.reset : State := {}

end Sys2Proof.Machine
end

