-- ==== Sys2Proof/Machine/Table.lean ====
section
/-!
DEFINITION. Reading and writing a sparse table. `d k` is what key `k` reads as while the table does
not list it, so a table of nothing but such values is the empty list and equal maps are equal data.
-/
namespace Sys2Proof.Machine

/-- What key `k` holds. -/
def tget {α : Type} (d : Nat → α) : Tbl α → Nat → α
  | [], k => d k
  | (k', v) :: t, k => if k = k' then v else tget d t k

/-- The table with `(k, v)` put before the first greater key. -/
def tput {α : Type} : Tbl α → Nat → α → Tbl α
  | [], k, v => [(k, v)]
  | (k', v') :: t, k, v => if k < k' then (k, v) :: (k', v') :: t else (k', v') :: tput t k v

/-- The table with `v` at key `k`: what the key held goes, and `v` is listed where it is not the default. -/
def tset {α : Type} [DecidableEq α] (d : Nat → α) (t : Tbl α) (k : Nat) (v : α) : Tbl α :=
  let rest := t.filter fun e => e.1 != k
  if v = d k then rest else tput rest k v

/-- The table with every key from `lo` up to but not including `hi` back at its default. -/
def tclear {α : Type} (lo hi : Nat) (t : Tbl α) : Tbl α :=
  t.filter fun e => decide (e.1 < lo) || decide (hi ≤ e.1)

/-- The canonical form above a bound: keys rise, and no entry is a default. -/
def tokFrom {α : Type} [DecidableEq α] (d : Nat → α) : Nat → Tbl α → Bool
  | _, [] => true
  | b, (k, v) :: t => decide (b ≤ k) && decide (v ≠ d k) && tokFrom d (k + 1) t

/-- The canonical form of a table. -/
def tok {α : Type} [DecidableEq α] (d : Nat → α) (t : Tbl α) : Bool := tokFrom d 0 t

/-- Change the value at one key. -/
def tmod {α : Type} [DecidableEq α] (d : Nat → α) (t : Tbl α) (k : Nat) (f : α → α) : Tbl α :=
  tset d t k (f (tget d t k))

end Sys2Proof.Machine
end

