-- ==== Sys2Proof/Machine/Regs.lean ====
section
/-!
DEFINITION. Reading and writing CFG registers and their fields. A register has one home, the register
file of `State`; how a port's access treats each field is Table SC-7.
-/
namespace Sys2Proof.Machine

/-- The offset within an array of registers is one of its elements. -/
def hitDims : List (Nat × Nat) → Nat → Bool
  | [], r => decide (r = 0)
  | (stride, count) :: ds, r => decide (r / stride < count) && hitDims ds (r % stride)

def RegDesc.hit (d : RegDesc) (off : Nat) : Bool :=
  decide (d.base ≤ off) && hitDims d.dims (off - d.base)

/-- The register map of the block that holds an offset (Table DO-7). -/
def blockRegs (off : Nat) : List RegDesc :=
  if off < 0x10000 then regsGlb
  else if off < 0x20000 then regsPace
  else if off < 0x30000 then regsRein
  else if off < 0x40000 then regsTherm
  else if off < 0x80000 then regsAssay
  else if off < 0x100000 then regsHqe
  else if off < 0x200000 then regsRingTable
  else if off < 0x300000 then regsDisp
  else if off < 0x400000 then regsStab
  else if off < 0x500000 then regsPool
  else if off < 0x600000 then regsGddr
  else if off < 0x700000 then regsFab
  else if off < 0x800000 then regsVis
  else if off < 0x900000 then regsRas
  else if off < 0xA00000 then regsDbg
  else if off < 0x1000000 then regsHostCore
  else if (off - 0x1000000) % 0x400000 < 0x40000 then regsTeam
  else regsSlot

/-- The register at an offset; `none` where the register maps define none (R13). -/
def regAt (off : Nat) : Option RegDesc := (blockRegs off).find? fun d => d.hit off

/-- The sum of the fields' reset values at their places. -/
def fieldsReset : List RegField → Nat
  | [] => 0
  | f :: fs => f.reset * 2 ^ f.lo + fieldsReset fs

/-- The reset value of the register at an offset (R12). RAS_LMAP_n is the mapping of R59 before any
repair; ESC of a stream context is AUTO (R284). -/
def regReset (off : Nat) : W32 :=
  match regAt off with
  | none => 0#32
  | some d =>
    if 0x800400 ≤ off ∧ off < 0x800500 then
      let n := (off - 0x800400) / 4
      BitVec.ofNat 32 (0x100 + (n / 8) * 16 + n % 8)
    else if 0x780000 ≤ off ∧ off < 0x800000 ∧ off % 128 = 12 then 0x20000000#32
    else BitVec.ofNat 32 (fieldsReset d.fields)

/-- The register file's word at an offset. -/
def State.rd (s : State) (off : Nat) : W32 := tget regReset s.regs off

/-- Set the register file's word at an offset. -/
def State.wr (s : State) (off : Nat) (v : W32) : State := { s with regs := tset regReset s.regs off v }

/-- A field of a word. -/
def fieldOf (w : W32) (lo width : Nat) : Nat := w.toNat / 2 ^ lo % 2 ^ width

/-- A word with a field replaced; the value is taken modulo the field's size. -/
def withField (w : W32) (lo width v : Nat) : W32 :=
  let mask := BitVec.ofNat 32 ((2 ^ width - 1) * 2 ^ lo)
  (w &&& ~~~mask) ||| (BitVec.ofNat 32 (v % 2 ^ width * 2 ^ lo))

/-- The value of a register field. -/
def State.getF (s : State) (f : Fld) : Nat := fieldOf (s.rd f.off) f.lo f.width

/-- Set a register field as the hardware does, whatever its access type. -/
def State.setF (s : State) (f : Fld) (v : Nat) : State := s.wr f.off (withField (s.rd f.off) f.lo f.width v)

/-- A one-bit field. -/
def State.flag (s : State) (f : Fld) : Bool := decide (s.getF f = 1)

/-- Set a status bit; a hardware set is never lost (R14). -/
def State.raise (s : State) (f : Fld) : State := s.setF f 1

/-- Add to a counter that saturates at all ones. -/
def State.addF (s : State) (f : Fld) (n : Nat) : State := s.setF f (min (s.getF f + n) (2 ^ f.width - 1))

/-- What a field holds after a port writes `new` to it while it holds `old` (Table SC-7). A WO field
triggers an action and keeps nothing. -/
def accessWrite (a : Access) (old new : Nat) : Nat :=
  match a with
  | .ro => old
  | .rw => new
  | .wo => old
  | .w1c => (BitVec.ofNat 32 old &&& ~~~(BitVec.ofNat 32 new)).toNat
  | .w1s => (BitVec.ofNat 32 old ||| BitVec.ofNat 32 new).toNat
  | .rc => old

/-- The word after a port's write, field by field. -/
def writeFields (old new : W32) : List RegField → W32
  | [] => old
  | f :: fs =>
    withField (writeFields old new fs) f.lo f.width
      (accessWrite f.acc (fieldOf old f.lo f.width) (fieldOf new f.lo f.width))

/-- What the fields of a word read as: a WO field reads 0. -/
def readFields (w : W32) : List RegField → W32
  | [] => 0#32
  | f :: fs =>
    withField (readFields w fs) f.lo f.width (if f.acc = .wo then 0 else fieldOf w f.lo f.width)

/-- The word left by a read: an RC field is cleared. -/
def clearRc (w : W32) : List RegField → W32
  | [] => w
  | f :: fs =>
    let w' := clearRc w fs
    if f.acc = .rc then withField w' f.lo f.width 0 else w'

/-- The offset lies in the registers of a unit that the variant does not have (R5, R6): the window of a Team, a raw
port with its ISP set, a fabric port. -/
def State.offAbsent (s : State) (off : Nat) : Bool :=
  let lacks (f : Fld) (i : Nat) : Bool := decide (s.getF f / 2 ^ i % 2 = 0)
  if 0x1000000 ≤ off ∧ off < 0x3000000 then lacks F.GLB_CAP_COMPUTE_TEAM_PRESENT ((off - 0x1000000) / 0x400000)
  else if 0x701000 ≤ off ∧ off < 0x701200 then lacks F.GLB_CAP_VIDEO_RAWPORT_PRESENT ((off - 0x701000) / 0x40)
  else if 0x710000 ≤ off ∧ off < 0x730000 then lacks F.GLB_CAP_VIDEO_RAWPORT_PRESENT ((off - 0x710000) / 0x4000)
  else if 0x600020 ≤ off ∧ off < 0x600028 then lacks F.GLB_CAP_IO_FAB_PORT_PRESENT ((off - 0x600020) / 4)
  else if 0x602000 ≤ off ∧ off < 0x602100 then lacks F.GLB_CAP_IO_FAB_PORT_PRESENT ((off - 0x602000) / 128)
  else false

/-- The bits that Table VF-5 defines of the dword at an offset in an ISP parameter set. -/
def ispBits (o : Nat) : W32 :=
  if o = 0 then 0xFF#32
  else if o = 0x18 ∨ o = 0x58 ∨ o = 0x704 then 0xFFFF#32
  else if o = 4 ∨ o = 0x1C ∨ (0x5C ≤ o ∧ o < 0x100) ∨ (0x708 ≤ o ∧ o < 0x800) ∨ 0x1108 ≤ o then 0#32
  else 0xFFFFFFFF#32

/-- The bits that Table HQ-2 defines of a ring's entry, by dword. -/
def ringBits : List W32 :=
  [0xFFFFFFFF#32, 0xBFFFF81F#32, 0xFFFFFFFF#32, 0xFFFF#32, 0xFFFFFFFF#32, 0xFFFF#32, 0xFFFFFFFF#32, 0xFFFFFFFF#32,
   0xFFFFFFFF#32, 0xFFFFFFFF#32, 0xE00FFFFF#32]

/-- The bits that Table HQ-4 and R347 define of a frame template, by dword. -/
def templateBits : List W32 :=
  [0xF0000000#32, 0xFFEFFFF7#32, 0xFFFFFFFF#32, 0xFFFFFFFF#32, 0xFFFFFFFF#32, 0xFFF8FFFF#32, 0xFFFFFFFF#32, 0xFFFFFFFF#32,
   0x87FF0000#32, 0xFFFFFFFF#32, 0xFFFFFFFF#32, 0xFFFFFFFF#32, 0#32, 0xFFFF8000#32, 0#32, 0x80003FFF#32]

/-- The bits that Table VF-8 defines of a Swage profile, by dword. -/
def profileBits : List W32 :=
  [0xFFFFFFFF#32, 0xFFFFFFFF#32, 0xFF800000#32, 0xFFFFFFFF#32, 0xFFFFFFFF#32, 0xFFFFFFFF#32, 0xFFFFFFFF#32, 0xFFFFFFFF#32,
   0xFFFFFFFF#32, 0xFFFFFFFF#32, 0#32, 0xFFFFFF00#32]

/-- The bits that Table VF-1 defines of a stream context, by dword. -/
def ctxBits : List W32 :=
  [0#32, 0xFFFFFF7F#32, 0xFFFFFFFF#32, 0xFFFF8000#32, 0xFFFFC000#32, 0xFFFFFFFF#32, 0xFFFFFFFF#32, 0xFFFFFFFF#32,
   0xFFFFFFFF#32, 0xFFFFFFFF#32, 0xFFFF0000#32, 0xFFFFE000#32, 0#32, 0xFFFFFFFF#32, 0xFFFFFF00#32, 0xFFFFFE00#32,
   0xF0000000#32, 0xFFFFFE00#32, 0xFFFF0000#32, 0xFFFFFE00#32, 0xFFFF0000#32, 0xFFFF0000#32, 0xFFFF0000#32, 0xFFFF0000#32,
   0xFFFFFFFF#32, 0xFFFFFFFF#32, 0xFFFF0000#32, 0xFFFFFFFF#32, 0xFFFF0000#32, 0xFFFFFE00#32, 0xFFFFFC00#32, 0xFFFFFFFF#32]

/-- The bits of a CFG word that its table defines, where it is a word of such a structure; its reserved bits read as 0
(R13). They are kept all the same where a rule looks at what software wrote there (R287, R330, R340). (DEDUCED, log 101) -/
def shownBits (off : Nat) : W32 :=
  if 0x100000 ≤ off ∧ off < 0x200000 then ringBits.getD (off % 64 / 4) 0#32
  else if 0x240000 ≤ off ∧ off < 0x280000 then templateBits.getD (off % 64 / 4) 0#32
  else if 0x710000 ≤ off ∧ off < 0x730000 then ispBits ((off - 0x710000) % 0x4000)
  else if 0x740000 ≤ off ∧ off < 0x744000 then profileBits.getD (off % 64 / 4) 0#32
  else if 0x780000 ≤ off ∧ off < 0x800000 then ctxBits.getD (off % 128 / 4) 0#32
  else 0xFFFFFFFF#32

/-- A port's plain write of a register: each field by its access type; an offset that no register
map defines, or whose unit is absent, ignores the write (R5, R13). -/
def State.portWrite (s : State) (off : Nat) (v : W32) : State :=
  match regAt off with
  | none => s
  | some d => if s.offAbsent off then s else s.wr off (writeFields (s.rd off) v d.fields)

/-- The value a field would take from a port's write. -/
def newF (v : W32) (f : Fld) : Nat := fieldOf v f.lo f.width

end Sys2Proof.Machine
end

