-- ==== Sys2Proof/Machine/Ops.lean ====
section
/-!
DEFINITION. The operations that the meanings share: memory, cores and Teams, events, semaphores, and
how a fault stops a core (R122).
-/
namespace Sys2Proof.Machine

abbrev Out := Host.Outcome State Fault Refusal

/-- A command from outside to a unit that is held in reset or has no power: it reaches nothing, and nothing changes
(R385, R389, R406, R454). (DEDUCED, log 8) -/
def unreached (s : State) : Out := .next s

/-! ### Reason codes -/

def rOK : Nat := 0x00
def rUnitAbsent : Nat := 0x13
def rFence : Nat := 0x21
def rIllegalShape : Nat := 0x30
def rLengthBounds : Nat := 0x31
def rAccOverflow : Nat := 0x32
def rStoreOverflow : Nat := 0x33
def rQueueOverflow : Nat := 0x34
def rSemOverflow : Nat := 0x35
def rDuplicateClaim : Nat := 0x36
def rPermission : Nat := 0x37
def rIntegrity : Nat := 0x39
def rUncorrectable : Nat := 0x3A
def rCheckMismatch : Nat := 0x3B
def rBarrierTimeout : Nat := 0x3C
def rAudit : Nat := 0x3D
def rSchedHazard : Nat := 0x3E

/-! ### Memory (R25): little-endian throughout (R124) -/

/-- What an unlisted byte reads as. (DESIGN CHOICE, log 1) -/
def byte0 : Nat → Byte := fun _ => 0#8

/-- The byte at a device physical address. (DESIGN CHOICE, log 1) -/
def State.ld8 (s : State) (a : Nat) : Nat := (tget byte0 s.mem a).toNat

def State.st8 (s : State) (a v : Nat) : State := { s with mem := tset byte0 s.mem a (BitVec.ofNat 8 v) }

/-- `n` bytes from an address. -/
def State.ldBytes (s : State) (a : Nat) : Nat → List Nat
  | 0 => []
  | n + 1 => s.ld8 a :: s.ldBytes (a + 1) n

def State.stBytes (s : State) (a : Nat) : List Nat → State
  | [] => s
  | b :: bs => (s.st8 a b).stBytes (a + 1) bs

/-- The number that bytes spell, the first the least significant. -/
def leNat : List Nat → Nat
  | [] => 0
  | b :: bs => b % 256 + 256 * leNat bs

/-- A number as `n` bytes, the least significant first. -/
def leBytes : Nat → Nat → List Nat
  | 0, _ => []
  | n + 1, v => v % 256 :: leBytes n (v / 256)

def State.ldN (s : State) (a n : Nat) : Nat := leNat (s.ldBytes a n)
def State.stN (s : State) (a n v : Nat) : State := s.stBytes a (leBytes n v)

/-- Memory zero from `a` up to but not including `b`. -/
def State.zeroMem (s : State) (a b : Nat) : State := { s with mem := tclear a b s.mem }

/-- The first byte of logical core `n`'s store (R25). -/
def storeBase (n : Nat) : Nat := 0x011000000000 + n * 0x400000
/-- The bytes of a core store. -/
def storeSize : Nat := 0x180000
def poolBase (t : Nat) : Nat := 0x010000000000 + t * 0x800000

/-! ### A fresh free value -/

/-- The free value at hand. (DESIGN CHOICE, log 6) -/
def State.free (s : State) : Nat := Config.freeNat s.fresh
/-- The free value has been used; the next is another. (DESIGN CHOICE, log 6) -/
def State.used1 (s : State) : State := { s with fresh := s.fresh + 1 }

/-! ### Cores and Teams -/

/-- A core at reset. (DESIGN CHOICE, log 2) -/
def core0 : Nat → Core := fun _ => {}
def team0 : Nat → Team := fun _ => {}

def State.core (s : State) (k : Nat) : Core := tget core0 s.cores k
def State.setCore (s : State) (k : Nat) (c : Core) : State := { s with cores := tset core0 s.cores k c }
def State.modCore (s : State) (k : Nat) (f : Core → Core) : State := s.setCore k (f (s.core k))
def State.team (s : State) (t : Nat) : Team := tget team0 s.teams t
def State.setTeam (s : State) (t : Nat) (x : Team) : State := { s with teams := tset team0 s.teams t x }
def State.modTeam (s : State) (t : Nat) (f : Team → Team) : State := s.setTeam t (f (s.team t))

/-- The physical slot that holds a logical core (RAS_LMAP_n, R59); `none` where the number is absent. -/
def State.slotOf (s : State) (n : Nat) : Option Nat :=
  if n < 64 ∧ s.getF (F.RAS_LMAP_PRESENT n) = 1 then
    some (9 * s.getF (F.RAS_LMAP_TEAM n) + s.getF (F.RAS_LMAP_SLOT n))
  else none

/-- Logical Team `t` exists (R7). -/
def State.teamPresent (s : State) (t : Nat) : Bool :=
  decide (t < 8 ∧ s.getF F.GLB_CAP_COMPUTE_TEAM_PRESENT / 2 ^ t % 2 = 1)
def State.fftPresent (s : State) (t : Nat) : Bool :=
  decide (t < 8 ∧ s.getF F.GLB_CAP_COMPUTE_FFT_PRESENT / 2 ^ t % 2 = 1)
def State.edgePresent (s : State) (t : Nat) : Bool :=
  decide (t < 8 ∧ s.getF F.GLB_CAP_COMPUTE_EDGE_PRESENT / 2 ^ t % 2 = 1)

/-- The number of the current tick (R36). -/
def State.tick (s : State) : Nat := s.getF F.PACE_TICK_HI_TICK * 2 ^ 32 + s.getF F.PACE_TICK_LO_TICK

/-- Latch an event for the next snapshot (R37). -/
def State.latch (s : State) (e : Ev) : State := { s with events := s.events ++ [e] }

/-! ### Who may write (R412, R425) -/

/-- The partition of a VF whose entry is VALID (R325). -/
def State.vfPart (s : State) (v : Nat) : Option Nat :=
  if 0 < v ∧ v < 64 ∧ s.getF (F.HQE_VF_VALID v) = 1 then some (s.getF (F.HQE_VF_PART v)) else none

def tdi0 : Nat → Nat := fun _ => 0

/-- A TDI of the partition is CONFIG_LOCKED or RUN (R425). -/
def State.tdiLocked (s : State) (p : Nat) : Bool :=
  (List.range 64).any fun v => decide (s.vfPart v = some p) && decide (tget tdi0 s.tdis v = 1 ∨ tget tdi0 s.tdis v = 2)

/-- The PF, or the DRT on the host cores. (DEDUCED, log 37) -/
def portHost : Port → Bool
  | .pf => true
  | .drt => true
  | _ => false

/-- A write outside its port's class is ignored and counted; that of a VF whose entry is not VALID as one to an
unpopulated address (R325). (DEDUCED, log 38) -/
def State.denied (s : State) (p : Port) : State :=
  match p with
  | .vf v => if (s.vfPart v).isSome then s.addF F.HQE_VF_DENIED_COUNT 1 else s.addF F.RAS_UNPOP_WR_COUNT 1
  | _ => s.addF F.TRUST_LOCK_DENIED_COUNT 1

/-- A port may write the configuration of a partition: a VF its own, the PF one that no TDI has locked.
(DEDUCED, log 43) -/
def State.partPort (s : State) (port : Port) (p : Nat) : Bool :=
  match port with
  | .pf => !s.tdiLocked p
  | .drt => true
  | .vf v => decide (s.vfPart v = some p)
  | .mgmt => false

/-! ### Scalar registers (R88) -/

/-- A word that nothing has written. (DESIGN CHOICE, log 2) -/
def sreg0 : Nat → W64 := fun _ => 0#64

/-- S0 reads as zero. -/
def Core.S (c : Core) (i : Nat) : W64 := if i = 0 then 0#64 else tget sreg0 c.sregs i

/-- Writes to S0 are ignored. -/
def Core.setS (c : Core) (i : Nat) (v : W64) : Core :=
  if i = 0 then c else { c with sregs := tset sreg0 c.sregs i v }

/-! ### Semaphores (R114 to R117) -/

def sem0 : Nat → Nat := fun _ => 0

def Core.sem (c : Core) (n : Nat) : Nat := tget sem0 c.sems n
def Core.setSem (c : Core) (n v : Nat) : Core := { c with sems := tset sem0 c.sems n v }

/-- Add to a semaphore; `none` where the sum would exceed 65,535, which is not applied (R117). -/
def Core.addSem (c : Core) (n k : Nat) : Option Core :=
  if c.sem n + k > 65535 then none else some (c.setSem n (c.sem n + k))

/-! ### The Team trace (R495) -/

def trace0 : Nat → BitVec 128 := fun _ => 0#128

/-- The last entry of the buffer has been written: WRAPPED shows it, or in STOP mode EN clears. -/
def State.traceFull (s : State) (t : Nat) : State :=
  if s.getF (F.TRACE_CTRL_STOP t) = 1 then s.setF (F.TRACE_CTRL_EN t) 0 else s.setF (F.TRACE_STATUS_WRAPPED t) 1

/-- With STOP_ON_BP the trace stops after a BRK or a BREAKPOINT. -/
def State.traceBp (s : State) (t ev : Nat) : State :=
  if s.getF (F.TRACE_CTRL_STOP_ON_BP t) = 1 ∧ (ev = 8 ∨ ev = 9) then s.setF (F.TRACE_CTRL_EN t) 0 else s

/-- An entry of Table MD-5: engine by the SOURCE coding, event by the table. The CYCLE field is a free value: the
model holds no cycle count (log 15). (DESIGN CHOICE, log 15) -/
def State.traceEntry (s : State) (core eng ev tag cmdcnt : Nat) : BitVec 128 :=
  BitVec.ofNat 128 ((s.free % 2 ^ 32) * 2 ^ 96 + (s.tick % 65536) * 2 ^ 80 + (core % 256) * 2 ^ 72
    + (eng % 16) * 2 ^ 68 + (ev % 16) * 2 ^ 64 + (tag % 65536) * 2 ^ 48 + cmdcnt % 2 ^ 48)

/-- Write the next entry of the buffer. -/
def State.tracePut (s : State) (t : Nat) (e : BitVec 128) : State :=
  ((s.modTeam t fun x => { x with trace := tset trace0 x.trace (s.getF (F.TRACE_STATUS_NEXT t)) e }).used1).setF
    (F.TRACE_STATUS_NEXT t) ((s.getF (F.TRACE_STATUS_NEXT t) + 1) % 4096)

/-- Enter an event in the Team trace. In WRAP mode the oldest entry is overwritten; in STOP mode EN clears when the
buffer is full; with STOP_ON_BP it clears after a BRK or BREAKPOINT. -/
def State.trace (s : State) (t core eng ev tag cmdcnt : Nat) : State :=
  if s.getF (F.TRACE_CTRL_EN t) = 1 ∧ s.getF (F.TRACE_CTRL_MASK t) / 2 ^ ev % 2 = 1 then
    let s1 := s.tracePut t (s.traceEntry core eng ev tag cmdcnt)
    (if s.getF (F.TRACE_STATUS_NEXT t) = 4095 then s1.traceFull t else s1).traceBp t ev
  else s

/-- Stop a core for the debugger: the Teamster stops before its next instruction and DBG_CORE_STATUS
shows the cause (R491). -/
def State.debugStop (s : State) (k cause bp code : Nat) : State :=
  (((s.modCore k fun c => { c with stopped := true, stepping := false }).setF (F.DBG_CORE_STATUS_CAUSE k) cause).setF
    (F.DBG_CORE_STATUS_BP k) bp).setF (F.DBG_CORE_STATUS_CODE k) code

/-! ### Jobs -/

def job0 : Nat → Job := fun _ => {}
def State.job (s : State) (j : Nat) : Job := tget job0 s.jobs j
def State.setJob (s : State) (j : Nat) (x : Job) : State := { s with jobs := tset job0 s.jobs j x }

/-- Mark the job that runs on slot `k`. -/
def State.markJob (s : State) (k : Nat) (f : Job → Job) : State :=
  match (s.core k).job with
  | none => s
  | some j => s.setJob j (f (s.job j))

/-! ### How a fault stops a core (R122) -/

/-- The stop is from outside: by a fence or an abort (R338, R345). -/
def outsideStop (reason : Nat) : Bool := decide (reason = rFence ∨ reason = 0x22)

/-- The job takes note of a core that stops before HALT, and of its first own fault (R345, R348). -/
def Job.noteStop (j : Job) (n : Nat) (g : FaultRec) : Job :=
  { j with stops := if n ∈ j.stops then j.stops else j.stops ++ [n],
           firstFault := if j.firstFault.isSome || outsideStop g.reason then j.firstFault else some { g with valid := true } }

/-- FAULT_CAUSE and FAULT_INFO hold the first fault since dispatch; a later one only adds to MORE. -/
def FaultRec.record (f : FaultRec) (g : FaultRec) : FaultRec :=
  if f.valid then { f with more := min 7 (f.more + 1) } else { g with valid := true, more := 0 }

/-- The core's entries leave EQ and FQ. -/
def Team.dropCore (t : Team) (n : Nat) : Team :=
  { t with eq := t.eq.filter (fun c => c.core != n), fq := t.fq.filter (fun c => c.core != n) }

/-- The core in slot `k`, which is logical core `n`, stops: its Teamster halts, the commands it has
not begun are discarded, the fault is recorded and reported as a class 2 event. Commands begun in
other engines run on. `ev` is the trace event, 3 for a fault and 4 for a refusal. (DEDUCED, log 13) -/
def State.stopCore (s : State) (k n : Nat) (g : FaultRec) (ev : Nat := 3) : State :=
  let placed := g.reason = rUncorrectable ∨ g.reason = rIntegrity
  let g := if placed then { g with obj := s.errPlace.1, off := s.errPlace.2 } else g
  let s1 := (s.markJob k fun j => j.noteStop n g).modCore k fun c =>
    { c with run := false, wait := none, faulted := true, mq := [], xq := [], vq := [], dq := [], kq := [],
             heldCmds := [], shadow := none, fault := c.fault.record g }
  ((s1.modTeam (k / 9) (·.dropCore n)).trace (k / 9) n g.source ev g.tag g.cmdcnt).latch (.coreFault k)

/-- Take the completed commands off the front (R348). -/
def popSent : Nat × Nat → List (Nat × Nat × Bool) → (Nat × Nat) × List (Nat × Nat × Bool)
  | _, (c, t, true) :: l => popSent (c, t) l
  | f, l => (f, l)

/-- Command `cnt` of the core has completed. -/
def Core.markDone (c : Core) (cnt : Nat) : Core :=
  let (f, l) := popSent c.front (c.sent.map fun e => if e.1 = cnt then (e.1, e.2.1, true) else e)
  { c with front := f, sent := l }

/-- The fault record of a command (Tables XM-10 and XM-11). -/
def Cmd.tag (c : Cmd) : Nat := c.w0.toNat % 65536

def cmdFault (cmd : Cmd) (source reason detail : Nat) : FaultRec :=
  { reason := reason, source := source, cmdcnt := cmd.cnt, tag := cmd.tag, pc := cmd.pc,
    detail := detail % 2 ^ 32 }

/-- Log an uncorrectable error of an on-chip memory of class `m` (R459). -/
def State.rasUe (s : State) (m unit addr : Nat) : State :=
  ((((((s.addF (F.RAS_ECC_UE_m_COUNT m) 1).setF
    F.RAS_UE_LOG0_CLASS m).setF F.RAS_UE_LOG0_UNIT unit).setF F.RAS_UE_LOG1_ADDR (addr % 2 ^ 32)).setF
    F.RAS_UE_LOG2_ADDR (addr / 2 ^ 32)).setF F.RAS_UE_LOG3_TICK (s.tick % 2 ^ 32)).raise F.RAS_STATUS_UE_SEEN

/-! ### Uncorrectable errors (R31, R264) -/

/-- An uncorrectable error lies within the bytes (R31). (DEDUCED, log 29) -/
def State.ueHit (s : State) (a len : Nat) : Bool :=
  s.ue.any fun e => decide (a < e.1 + e.2 ∧ e.1 < a + len)

/-- Count and log an uncorrectable error read at a device address, and note the object and offset that
a completion record will name (R31, R264, R345, R459). -/
def State.logUe (s : State) (a obj off : Nat) : State :=
  let s1 := { s with errPlace := (obj, off) }
  if a < 0x000800000000 then
    let g := a / 64
    ((s1.addF F.GDDR_UE_COUNT 1).setF F.GDDR_ERR_ADDR_LO_ADDR (g % 2 ^ 26)).setF F.GDDR_ERR_ADDR_HI_ADDR (g / 2 ^ 26)
  else if a < 0x010004000000 then s1.rasUe 2 ((a - poolBase 0) / 0x800000) (a - poolBase 0)
  else s1.rasUe 0 ((a - storeBase 0) / 0x400000) ((a - storeBase 0) % 0x400000)

/-- Log an uncorrectable error in a core's store: OBJ is 0xFFFF, and OFFSET names the core and the byte. -/
def State.logStoreUe (s : State) (c off : Nat) : State :=
  s.logUe (storeBase c + off) 0xFFFF (c * 2 ^ 32 + off)

/-- A write of whole words or granules removes their errors (R264). (DEDUCED, log 29) -/
def State.ueClear (s : State) (a len : Nat) : State :=
  { s with ue := s.ue.filter fun e => !decide (a ≤ e.1 ∧ e.1 + e.2 ≤ a + len) }

end Sys2Proof.Machine
end

