-- ==== Sys2Proof/Machine/Operands.lean ====
section
/-!
DEFINITION. The operand fields of Teamster instruction words (Tables XR-1, XR-3, XR-4), of engine
commands (Table XM-3) and of operand references (Table XR-5).
-/
namespace Sys2Proof.Machine

/-- Bits `hi` to `lo` of a word, as a number. -/
def bits (w : W64) (hi lo : Nat) : Nat := w.toNat / 2 ^ lo % 2 ^ (hi - lo + 1)

/-- One bit of a word. -/
def bit (w : W64) (i : Nat) : Bool := decide (w.toNat / 2 ^ i % 2 = 1)

def opcodeOf (w : W64) : Nat := bits w 63 56
def fRD (w : W64) : Nat := bits w 55 51
def fRS1 (w : W64) : Nat := bits w 50 46
def fRS2 (w : W64) : Nat := bits w 45 41
/-- IMM as it stands in the word. -/
def fImm (w : W64) : Nat := bits w 31 0
/-- IMM sign-extended to 64 bits (R126). -/
def fImmS (w : W64) : W64 := (w.extractLsb' 0 32).signExtend 64

/-- The bits from `hi` down to `lo`, set. -/
def maskOf (hi lo : Nat) : Nat := (2 ^ (hi - lo + 1) - 1) * 2 ^ lo

/-- No bit of the mask is set in the word (R125). -/
def clearOf (w : W64) (mask : Nat) : Bool := decide (w &&& BitVec.ofNat 64 mask = 0#64)

/-! Reserved bits by instruction (R126): the bits that neither the format nor the instruction uses. -/

def resvR : Nat := maskOf 40 0
def resvNone : Nat := maskOf 55 0
def resvI : Nat := maskOf 45 32
def resvShiftI : Nat := maskOf 45 6
def resvLI : Nat := maskOf 50 32
def resvS : Nat := maskOf 55 51 + maskOf 40 32
def resvBranch : Nat := maskOf 55 51 + maskOf 40 13
def resvJal : Nat := maskOf 50 13
def resvCsrr : Nat := maskOf 50 12
def resvCsrw : Nat := maskOf 55 51 + maskOf 45 12
def resvTag : Nat := maskOf 55 17
def resvSalloc : Nat := maskOf 45 0
def resvSreset : Nat := maskOf 55 51 + maskOf 45 0
def resvQcfg : Nat := maskOf 55 51 + maskOf 45 5
def resvQadv : Nat := maskOf 55 51 + maskOf 45 32 + maskOf 15 5
def resvIssue : Nat := maskOf 52 51 + maskOf 27 16
def resvY : Nat := maskOf 38 24
def resvBrk : Nat := maskOf 55 16

/-! ### Command word 0 (Table XM-3) -/

def Cmd.opc (c : Cmd) : Nat := bits c.w0 63 56
def Cmd.sig (c : Cmd) : Bool := bit c.w0 55
def Cmd.rsig (c : Cmd) : Bool := bit c.w0 54
def Cmd.sem (c : Cmd) : Nat := bits c.w0 53 48
def Cmd.sigcnt (c : Cmd) : Nat := bits c.w0 47 40
def Cmd.rcore (c : Cmd) : Nat := bits c.w0 39 32

/-! ### Operand references (Table XR-5) -/

/-- A reference, decoded. -/
inductive Ref where
  | loc (off : Nat)
  | remote (core off : Nat)
  | object (id off : Nat)
  | queue (core : Option Nat) (q : Nat)
deriving DecidableEq, Repr

/-- The reference a word spells; `none` where a reserved field is set. -/
def refOf (w : W64) : Option Ref :=
  match bits w 63 62 with
  | 0 => if clearOf w (maskOf 61 21) then some (.loc (bits w 20 0)) else none
  | 1 => if clearOf w (maskOf 61 32 + maskOf 23 21) then some (.remote (bits w 31 24) (bits w 20 0)) else none
  | 2 => if clearOf w (maskOf 45 40) then some (.object (bits w 61 46) (bits w 39 0)) else none
  | _ =>
    if clearOf w (maskOf 61 17 + maskOf 7 5) then
      some (.queue (if bit w 16 then some (bits w 15 8) else none) (bits w 4 0))
    else none

end Sys2Proof.Machine
end

