-- ==== Sys2Proof/Machine/Queues.lean ====
section
/-!
DEFINITION. Data queues: rings of elements in a core store (R101 to R106). An operation that a rule
says waits answers `wait`; one that a rule refuses answers `bad`.
-/
namespace Sys2Proof.Machine

def queue0 : Nat → Queue := fun _ => {}

def Core.queue (c : Core) (q : Nat) : Queue := tget queue0 c.queues q
def Core.setQueue (c : Core) (q : Nat) (x : Queue) : Core := { c with queues := tset queue0 c.queues q x }

/-- Bytes of a plain element by ESIZE code. -/
def esizeBytes (code : Nat) : Nat := 32 * 2 ^ code

/-- E of R102: the element size, with 8 bytes for each 64-byte block under zero compression. -/
def Queue.slotBytes (q : Queue) : Nat :=
  if q.zc then esizeBytes q.esize + 8 * (esizeBytes q.esize / 64) else esizeBytes q.esize

def Queue.ring (q : Queue) : Nat := q.depth * q.slotBytes

def sumLens : List (Nat × Bool) → Nat
  | [] => 0
  | e :: es => e.1 + sumLens es

/-- Committed elements. -/
def Queue.count (q : Queue) : Nat := (q.els.takeWhile (·.2)).length
/-- Elements reserved and not committed. -/
def Queue.pend (q : Queue) : Nat := q.els.length - q.count

/-- Space for one more reservation. -/
def Queue.hasRoom (q : Queue) : Bool :=
  if q.zc then decide (sumLens q.els + q.slotBytes ≤ q.ring) else decide (q.els.length < q.depth)

/-- The ring offset after the last reservation. -/
def Queue.tail (q : Queue) : Nat := if q.ring = 0 then 0 else (q.head + sumLens q.els) % q.ring

/-- Bytes of a core's store from a ring offset, wrapping at the ring's end. -/
def State.ldRing (s : State) (n base ring off : Nat) : Nat → List Nat
  | 0 => []
  | m + 1 => s.ld8 (storeBase n + base + off % ring) :: s.ldRing n base ring (off + 1) m

def State.stRing (s : State) (n base ring off : Nat) : List Nat → State
  | [] => s
  | b :: bs => (s.st8 (storeBase n + base + off % ring) b).stRing n base ring (off + 1) bs

/-- The ring lies below STORE_TOP; where it does not, the next use faults (R100). -/
def Core.ringOk (c : Core) (q : Queue) : Bool := decide (q.base + q.ring ≤ c.storeTop)

/-- Take the head element: its bytes and the state after. `none` when no element is committed. -/
def State.pop (s : State) (n k q : Nat) : Option (List Nat × State) :=
  let c := s.core k
  let x := c.queue q
  match x.els with
  | (len, true) :: rest =>
    let h := if x.ring = 0 then 0 else (x.head + len) % x.ring
    some (s.ldRing n x.base x.ring x.head len, s.setCore k (c.setQueue q { x with head := h, els := rest }))
  | _ => none

/-- Reserve, write and commit one element at the tail. -/
def State.push (s : State) (n k q : Nat) (bytes : List Nat) : State :=
  let c := s.core k
  let x := c.queue q
  (s.stRing n x.base x.ring x.tail bytes).setCore k (c.setQueue q { x with els := x.els ++ [(bytes.length, true)] })

/-- Reserve one element of `len` bytes at the tail; its ring offset is the tail before. -/
def State.reserve (s : State) (k q len : Nat) : State :=
  s.modCore k fun c => c.setQueue q { c.queue q with els := (c.queue q).els ++ [(len, false)] }

/-- The first reservation that is not written is at this index and ring offset. -/
def firstUnwritten : Nat → List (Nat × Bool) → Option Nat
  | _, [] => none
  | off, (len, w) :: es => if w then firstUnwritten (off + len) es else some off

def writeFirst : List (Nat × Bool) → List (Nat × Bool)
  | [] => []
  | (len, w) :: es => if w then (len, w) :: writeFirst es else (len, true) :: es

/-- Write and commit the oldest reservation that is not written. -/
def State.commit (s : State) (n k q : Nat) (bytes : List Nat) : State :=
  let c := s.core k
  let x := c.queue q
  match firstUnwritten x.head x.els with
  | none => s
  | some off => (s.stRing n x.base x.ring off bytes).setCore k (c.setQueue q { x with els := writeFirst x.els })

/-- Reservations that are not committed are returned (R122). -/
def Core.returnResv (c : Core) (q : Nat) : Core :=
  c.setQueue q { c.queue q with els := (c.queue q).els.takeWhile (·.2) }

/-! ### Queue descriptors (Table XM-2, R102) -/

/-- The checks of QCFG in order: the reason and the detail of the first that fails. -/
def qcfgCheck (d : W64) (q top : Nat) : Option (Nat × Nat) :=
  let depth := bits d 60 48
  let es := bits d 47 45
  let zc := bit d 44
  let base := bits d 20 6 * 64
  let x : Queue := { depth := depth, esize := es, zc := zc, base := base }
  if ¬ clearOf d (maskOf 63 61 + maskOf 43 21 + maskOf 5 0) then some (rIllegalShape, q)
  else if depth > 4096 then some (rQueueOverflow, q)
  else if es ≥ 6 ∨ (zc ∧ es = 0) then some (rIllegalShape, q)
  else if base + x.ring > top then some (rLengthBounds, q)
  else none

/-- The queue that a descriptor leaves: empty, its head and tail at BASE. -/
def queueOf (d : W64) : Queue :=
  { depth := bits d 60 48, esize := bits d 47 45, zc := bit d 44, base := bits d 20 6 * 64 }

/-! ### Zero compression (R152, R222): a 64-byte block is a 64-bit mask and its nonzero bytes in
8-byte steps -/

def padTo8 (l : List Nat) : List Nat := l ++ List.replicate ((8 - l.length % 8) % 8) 0

/-- The mask of a block's nonzero bytes, bit i for byte i. -/
def nzMask : Nat → List Nat → Nat
  | _, [] => 0
  | i, b :: bs => (if b = 0 then 0 else 2 ^ i) + nzMask (i + 1) bs

def zcBlock (l : List Nat) : List Nat := leBytes 8 (nzMask 0 l) ++ padTo8 (l.filter (· ≠ 0))

/-- A row compressed over its whole 64-byte blocks. -/
def zcRow : Nat → List Nat → List Nat
  | 0, _ => []
  | n + 1, l => zcBlock (l.take 64) ++ zcRow n (l.drop 64)

/-- A row in zero-compressed form (R222). (DEDUCED, log 23) -/
def compress (l : List Nat) : List Nat := zcRow (l.length / 64) l

/-- A block's bytes back from its mask and its nonzero bytes. -/
def unzBlock (mask : Nat) : Nat → Nat → List Nat → List Nat
  | 0, _, _ => []
  | m + 1, i, nz =>
    if mask / 2 ^ i % 2 = 1 then nz.headD 0 :: unzBlock mask m (i + 1) nz.tail
    else 0 :: unzBlock mask m (i + 1) nz

/-- Set bits of a mask below `n`. -/
def popcount : Nat → Nat → Nat
  | 0, _ => 0
  | n + 1, m => m % 2 + popcount n (m / 2)

/-- The bytes that a compressed block of mask `m` occupies. -/
def zcBlockLen (m : Nat) : Nat := 8 + 8 * ((popcount 64 m + 7) / 8)

/-- A row of `n` blocks back from its compressed bytes. (DEDUCED, log 23) -/
def decompress : Nat → List Nat → List Nat
  | 0, _ => []
  | n + 1, l =>
    let m := leNat (l.take 8)
    unzBlock m 64 0 (l.drop 8) ++ decompress n (l.drop (zcBlockLen m))

end Sys2Proof.Machine
end

