-- ==== Sys2Proof/Machine/Teamster.lean ====
section
/-!
DEFINITION. The Teamster: fetch, the scalar instructions, control flow, CSRs, store space, queues and
the instructions that stop it (R88 to R106, R125 to R138).
-/
namespace Sys2Proof.Machine

/-- What an instruction does: it takes effect, it stalls and is tried again (Table XM-5), it is held
by a gated Team, or it faults with a reason and a DETAIL. `ev` is the trace event, 4 for a refusal at
ISSUE; `fail` faults after the error has been logged. -/
inductive TOut where
  | done (s : State)
  | stall
  | hold (s : State)
  | bad (reason detail : Nat) (ev : Nat)
  | fail (s : State) (reason detail : Nat)
deriving DecidableEq, Repr

/-- The Teamster of slot `k` faults on the instruction at its PC (R122). (DEDUCED, log 13) -/
def State.tfault (s : State) (k n : Nat) (c : Core) (reason detail ev : Nat) : State :=
  s.stopCore k n { reason := reason, source := 0, cmdcnt := c.cmdcnt, tag := c.ctag, pc := c.pc % 8192,
                   detail := detail % 2 ^ 32 } ev

/-- An instruction has completed: a core that was told to STEP stops (R493). A WAIT that stalls has not.
(DEDUCED, log 88) -/
def State.stepDone (s : State) (k n : Nat) : State :=
  let c := s.core k
  if c.stepping ∧ c.run ∧ c.stopped = false ∧ c.wait = none then (s.debugStop k 4 0 0).trace (k / 9) n 0 10 c.ctag c.cmdcnt else s

/-- One instruction of logical core `n`: fetched at PC, with opcode `opc` and no bit of `resv` set.
A PC beyond the last word loaded faults (R92), and so does a reserved bit (R125). (DESIGN CHOICE, log 9)
(DESIGN CHOICE, log 9) (DESIGN CHOICE, log 10) (DEDUCED, log 14) -/
def teamster (n opc resv : Nat) (body : State → Nat → Core → W64 → TOut) (s : State) : Out :=
  if s.phase ≠ .up then .refused .cannotOccur
  else match s.slotOf n with
  | none => .refused .noSuchUnit
  | some k =>
    let c := s.core k
    if c.run = true ∧ c.stopped = false ∧ c.wait = none then
      if c.nInst ≤ c.pc then .next (s.tfault k n c rLengthBounds c.pc 3)
      else if (3, c.pc) ∈ c.bad then .next ({ s.rasUe 3 n c.pc with errPlace := (0xFFFF, n * 2 ^ 32) }.tfault k n c rUncorrectable c.pc 3)
      else
        let w := tget sreg0 c.istore c.pc
        if opcodeOf w ≠ opc then .refused .otherInstruction
        else if clearOf w resv = false then .next (s.tfault k n c rIllegalShape (bits w 63 32) 3)
        else match body s k c w with
          | .done s' => .next (s'.stepDone k n)
          | .stall => .next s
          | .hold s' => .next s'
          | .bad reason detail ev => .next (s.tfault k n c reason detail ev)
          | .fail s' reason detail => .next (s'.tfault k n c reason detail 3)
    else .refused .cannotOccur

def Core.advance (c : Core) : Core := { c with pc := c.pc + 1 }

/-- An instruction that writes RD from the core's registers and its word, and goes on to the next word. -/
def toRD (f : Core → W64 → W64) : State → Nat → Core → W64 → TOut :=
  fun s k c w => .done (s.setCore k ((c.setS (fRD w) (f c w)).advance))

/-- RD = S[RS1] op S[RS2]. -/
def aluR (f : W64 → W64 → W64) : State → Nat → Core → W64 → TOut :=
  toRD fun c w => f (c.S (fRS1 w)) (c.S (fRS2 w))

/-- RD = S[RS1] op IMM, sign-extended. -/
def aluI (f : W64 → W64 → W64) : State → Nat → Core → W64 → TOut :=
  toRD fun c w => f (c.S (fRS1 w)) (fImmS w)

/-! ### Scalar arithmetic (R127 to R129) -/

def bool64 (b : Bool) : W64 := if b then 1#64 else 0#64

/-- Shifts use the low 6 bits of their amount (R128). -/
def shl64 (a b : W64) : W64 := a <<< (b.toNat % 64)
def shr64 (a b : W64) : W64 := a >>> (b.toNat % 64)
def sra64 (a b : W64) : W64 := a.sshiftRight (b.toNat % 64)
def mulh64 (a b : W64) : W64 := BitVec.ofInt 64 (a.toInt * b.toInt / (2 : Int) ^ 64)
def mulhu64 (a b : W64) : W64 := BitVec.ofNat 64 (a.toNat * b.toNat / 2 ^ 64)

/-- DIV truncates towards zero; a zero divisor gives all ones (R129). -/
def div64 (a b : W64) : W64 := if b = 0#64 then BitVec.allOnes 64 else BitVec.ofInt 64 (a.toInt.tdiv b.toInt)
def divu64 (a b : W64) : W64 := if b = 0#64 then BitVec.allOnes 64 else BitVec.ofNat 64 (a.toNat / b.toNat)
/-- The remainder's sign follows the dividend; a zero divisor leaves the dividend (R129). -/
def rem64 (a b : W64) : W64 := if b = 0#64 then a else BitVec.ofInt 64 (a.toInt.tmod b.toInt)
def remu64 (a b : W64) : W64 := if b = 0#64 then a else BitVec.ofNat 64 (a.toNat % b.toNat)

def execNop (n : Nat) (s : State) : Out := teamster n 0x00 resvNone (fun s k c _ => .done (s.setCore k c.advance)) s
def execAdd (n : Nat) (s : State) : Out := teamster n 0x01 resvR (aluR (· + ·)) s
def execSub (n : Nat) (s : State) : Out := teamster n 0x02 resvR (aluR (· - ·)) s
def execAnd (n : Nat) (s : State) : Out := teamster n 0x03 resvR (aluR (· &&& ·)) s
def execOr (n : Nat) (s : State) : Out := teamster n 0x04 resvR (aluR (· ||| ·)) s
def execXor (n : Nat) (s : State) : Out := teamster n 0x05 resvR (aluR (· ^^^ ·)) s
def execSll (n : Nat) (s : State) : Out := teamster n 0x06 resvR (aluR shl64) s
def execSrl (n : Nat) (s : State) : Out := teamster n 0x07 resvR (aluR shr64) s
def execSra (n : Nat) (s : State) : Out := teamster n 0x08 resvR (aluR sra64) s
def execSlt (n : Nat) (s : State) : Out := teamster n 0x09 resvR (aluR fun a b => bool64 (a.slt b)) s
def execSltu (n : Nat) (s : State) : Out := teamster n 0x0A resvR (aluR fun a b => bool64 (a.ult b)) s
def execAddi (n : Nat) (s : State) : Out := teamster n 0x11 resvI (aluI (· + ·)) s
def execAndi (n : Nat) (s : State) : Out := teamster n 0x13 resvI (aluI (· &&& ·)) s
def execOri (n : Nat) (s : State) : Out := teamster n 0x14 resvI (aluI (· ||| ·)) s
def execXori (n : Nat) (s : State) : Out := teamster n 0x15 resvI (aluI (· ^^^ ·)) s
def execSlli (n : Nat) (s : State) : Out := teamster n 0x16 resvShiftI (aluI shl64) s
def execSrli (n : Nat) (s : State) : Out := teamster n 0x17 resvShiftI (aluI shr64) s
def execSrai (n : Nat) (s : State) : Out := teamster n 0x18 resvShiftI (aluI sra64) s
def execSlti (n : Nat) (s : State) : Out := teamster n 0x19 resvI (aluI fun a b => bool64 (a.slt b)) s
def execSltiu (n : Nat) (s : State) : Out := teamster n 0x1A resvI (aluI fun a b => bool64 (a.ult b)) s
def execLi (n : Nat) (s : State) : Out := teamster n 0x1B resvLI (toRD fun _ w => fImmS w) s
/-- LIH reads RD as a source and keeps its low half (R128). -/
def execLih (n : Nat) (s : State) : Out :=
  teamster n 0x1C resvLI (toRD fun c w => (w.extractLsb' 0 32) ++ ((c.S (fRD w)).extractLsb' 0 32)) s
def execMul (n : Nat) (s : State) : Out := teamster n 0x20 resvR (aluR (· * ·)) s
def execMulh (n : Nat) (s : State) : Out := teamster n 0x21 resvR (aluR mulh64) s
def execMulhu (n : Nat) (s : State) : Out := teamster n 0x22 resvR (aluR mulhu64) s
def execDiv (n : Nat) (s : State) : Out := teamster n 0x24 resvR (aluR div64) s
def execDivu (n : Nat) (s : State) : Out := teamster n 0x25 resvR (aluR divu64) s
def execRem (n : Nat) (s : State) : Out := teamster n 0x26 resvR (aluR rem64) s
def execRemu (n : Nat) (s : State) : Out := teamster n 0x27 resvR (aluR remu64) s

/-! ### Loads and stores (R90, R130) -/

/-- S[RS1] + IMM modulo 2^64, the bits below the access size ignored. -/
def lsAddr (c : Core) (w : W64) (size : Nat) : Nat :=
  let a := (c.S (fRS1 w) + fImmS w).toNat
  a - a % size

/-- A load of `size` bytes, sign- or zero-extended; one that meets an uncorrectable error faults (R31). -/
def loadOp (n size : Nat) (signed : Bool) : State → Nat → Core → W64 → TOut := fun s k c w =>
  let a := lsAddr c w size
  if c.storeTop ≤ a then .bad rLengthBounds a 3
  else if s.ueHit (storeBase n + a) size then .fail (s.logStoreUe n a) rUncorrectable a
  else
    let v := s.ldN (storeBase n + a) size
    let x := if signed then BitVec.ofInt 64 (if 2 ^ (8 * size - 1) ≤ v then (v : Int) - 2 ^ (8 * size) else v)
             else BitVec.ofNat 64 v
    .done (s.setCore k ((c.setS (fRD w) x).advance))

/-- A store of the low `size` bytes of S[RS2]. -/
def storeOp (n size : Nat) : State → Nat → Core → W64 → TOut := fun s k c w =>
  let a := lsAddr c w size
  if c.storeTop ≤ a then .bad rLengthBounds a 3
  else .done (((s.stN (storeBase n + a) size (c.S (fRS2 w)).toNat).ueClear (storeBase n + a) size).setCore k c.advance)

def execLdB (n : Nat) (s : State) : Out := teamster n 0x30 resvI (loadOp n 1 true) s
def execLdH (n : Nat) (s : State) : Out := teamster n 0x31 resvI (loadOp n 2 true) s
def execLdW (n : Nat) (s : State) : Out := teamster n 0x32 resvI (loadOp n 4 true) s
def execLdD (n : Nat) (s : State) : Out := teamster n 0x33 resvI (loadOp n 8 true) s
def execLduB (n : Nat) (s : State) : Out := teamster n 0x34 resvI (loadOp n 1 false) s
def execLduH (n : Nat) (s : State) : Out := teamster n 0x35 resvI (loadOp n 2 false) s
def execLduW (n : Nat) (s : State) : Out := teamster n 0x36 resvI (loadOp n 4 false) s
def execStB (n : Nat) (s : State) : Out := teamster n 0x38 resvS (storeOp n 1) s
def execStH (n : Nat) (s : State) : Out := teamster n 0x39 resvS (storeOp n 2) s
def execStW (n : Nat) (s : State) : Out := teamster n 0x3A resvS (storeOp n 4) s
def execStD (n : Nat) (s : State) : Out := teamster n 0x3B resvS (storeOp n 8) s

/-! ### Control flow (R131) -/

/-- A branch to IMM[12:0] where the comparison of S[RS1] with S[RS2] holds. -/
def branchOp (p : W64 → W64 → Bool) : State → Nat → Core → W64 → TOut := fun s k c w =>
  .done (s.setCore k (if p (c.S (fRS1 w)) (c.S (fRS2 w)) then { c with pc := bits w 12 0 } else c.advance))

def execBeq (n : Nat) (s : State) : Out := teamster n 0x40 resvBranch (branchOp fun a b => decide (a = b)) s
def execBne (n : Nat) (s : State) : Out := teamster n 0x41 resvBranch (branchOp fun a b => decide (a ≠ b)) s
def execBlt (n : Nat) (s : State) : Out := teamster n 0x42 resvBranch (branchOp fun a b => a.slt b) s
def execBge (n : Nat) (s : State) : Out := teamster n 0x43 resvBranch (branchOp fun a b => !a.slt b) s
def execBltu (n : Nat) (s : State) : Out := teamster n 0x44 resvBranch (branchOp fun a b => a.ult b) s
def execBgeu (n : Nat) (s : State) : Out := teamster n 0x45 resvBranch (branchOp fun a b => !a.ult b) s

/-- The link is the index of the next word. -/
def Core.link (c : Core) : W64 := BitVec.ofNat 64 (c.pc + 1)

def execJal (n : Nat) (s : State) : Out :=
  teamster n 0x48 resvJal (fun s k c w => .done (s.setCore k { (c.setS (fRD w) c.link) with pc := bits w 12 0 })) s

def execJalr (n : Nat) (s : State) : Out :=
  teamster n 0x49 resvI (fun s k c w =>
    let target := (c.S (fRS1 w) + fImmS w).toNat
    if 8192 ≤ target then .bad rLengthBounds target 3
    else .done (s.setCore k { (c.setS (fRD w) c.link) with pc := target })) s

/-! ### CSRs and tags (R123, R132) -/

/-- QSTATE_n (Table XM-12). -/
def Queue.state (q : Queue) : Nat := q.count * 2 ^ 48 + q.pend * 2 ^ 32 + (q.base + q.head) % 2 ^ 21

/-- FAULT_CAUSE (Table XM-10). -/
def FaultRec.cause (f : FaultRec) : Nat :=
  f.reason * 2 ^ 56 + f.source * 2 ^ 52 + (if f.valid then 2 ^ 51 else 0) + f.more * 2 ^ 48 + f.cmdcnt
/-- FAULT_INFO (Table XM-11). -/
def FaultRec.info (f : FaultRec) : Nat := f.tag * 2 ^ 48 + f.pc * 2 ^ 32 + f.detail

/-- The value of a CSR (Table XM-7); `none` for a number it does not define. BUDGET_LEFT is a free
value up to the core's budget of the tick, for the model holds no cycle count. (DESIGN CHOICE, log 15)
(DESIGN CHOICE, log 15) (DEDUCED, log 26) -/
def State.csr (s : State) (n : Nat) (c : Core) (num : Nat) : Option Nat :=
  if num = 0x000 then some (n + (n / 8) * 256)
  else if num = 0x001 then some s.tick
  else if num = 0x002 then some (s.free % ((tget (fun _ => 0) s.budget n).toNat + 1))
  else if num = 0x003 then some c.epoch
  else if num = 0x010 then some (c.ctag + (if c.auto then 65536 else 0))
  else if num = 0x011 then some c.cmdcnt
  else if num = 0x020 then some c.split.toNat
  else if num = 0x021 then some c.storeTop
  else if num = 0x030 then some c.fault.cause
  else if num = 0x031 then some c.fault.info
  else if 0x040 ≤ num ∧ num < 0x060 then some (c.queue (num - 0x040)).state
  else none

def execCsrr (n : Nat) (s : State) : Out :=
  teamster n 0x50 resvCsrr (fun s k c w =>
    match s.csr n c (bits w 11 0) with
    | none => .bad rIllegalShape (bits w 11 0) 3
    | some v =>
      let s' := s.setCore k ((c.setS (fRD w) (BitVec.ofNat 64 v)).advance)
      .done (if bits w 11 0 = 0x002 then s'.used1 else s')) s

/-- CTAG is the one CSR that CSRW writes. (DEDUCED, log 26) -/
def execCsrw (n : Nat) (s : State) : Out :=
  teamster n 0x51 resvCsrw (fun s k c w =>
    let v := c.S (fRS1 w)
    .done (s.setCore k (if bits w 11 0 = 0x010 then { c with ctag := bits v 15 0, auto := bit v 16 }.advance
                        else c.advance))) s

def execSetTag (n : Nat) (s : State) : Out :=
  teamster n 0x52 resvTag (fun s k c w =>
    .done (s.setCore k { c with ctag := bits w 15 0, auto := bit w 16 }.advance)) s

/-! ### Store space (R99, R100, R133) -/

def roundUp (a m : Nat) : Nat := (a + m - 1) / m * m

def execSalloc (n : Nat) (s : State) : Out :=
  teamster n 0x58 resvSalloc (fun s k c w =>
    let top := c.storeTop + roundUp (c.S (fRS1 w)).toNat 64
    if storeSize < top then .bad rStoreOverflow c.storeTop 3
    else .done (s.setCore k ({ c.setS (fRD w) (BitVec.ofNat 64 c.storeTop) with storeTop := top }.advance))) s

def execSreset (n : Nat) (s : State) : Out :=
  teamster n 0x59 resvSreset (fun s k c w =>
    let v := (c.S (fRS1 w)).toNat
    if v % 64 = 0 ∧ c.staticSize ≤ v ∧ v ≤ c.storeTop then .done (s.setCore k { c with storeTop := v }.advance)
    else .bad rLengthBounds v 3) s

/-! ### Queue instructions (R102, R106, R134) -/

/-- The checks of R102 come first; then QCFG waits until the queue holds no entries and no
reservations. -/
def execQcfg (n : Nat) (s : State) : Out :=
  teamster n 0x60 resvQcfg (fun s k c w =>
    let q := bits w 4 0
    let d := c.S (fRS1 w)
    match qcfgCheck d q c.storeTop with
    | some (r, det) => .bad r det 3
    | none => if (c.queue q).els = [] then .done (s.setCore k (c.setQueue q (queueOf d)).advance) else .stall) s

/-- k = S[RS1] + IMM[31:16] (R134). -/
def qadvCount (c : Core) (w : W64) : Nat := (c.S (fRS1 w) + BitVec.ofNat 64 (bits w 31 16)).toNat

def execQadvT (n : Nat) (s : State) : Out :=
  teamster n 0x61 resvQadv (fun s k c w =>
    let i := bits w 4 0
    let q := c.queue i
    let m := qadvCount c w
    if q.zc then .bad rIllegalShape i 3
    else if m = 0 then .done (s.setCore k c.advance)
    else if m > 4096 ∨ q.els.length + m > q.depth then .bad rQueueOverflow i 3
    else .done (s.setCore k (c.setQueue i { q with els := q.els ++ List.replicate m (q.slotBytes, true) }).advance)) s

def execQadvH (n : Nat) (s : State) : Out :=
  teamster n 0x62 resvQadv (fun s k c w =>
    let i := bits w 4 0
    let q := c.queue i
    let m := qadvCount c w
    if q.zc then .bad rIllegalShape i 3
    else if m = 0 then .done (s.setCore k c.advance)
    else if m > 4096 ∨ m > q.count then .bad rQueueOverflow i 3
    else .done (s.setCore k (c.setQueue i
      { q with head := (q.head + m * q.slotBytes) % q.ring, els := q.els.drop m }).advance)) s

/-! ### Semaphores (R114 to R117, R136) -/

/-- k = S[RSK] + KIMM modulo 2^64. -/
def yCount (c : Core) (w : W64) : Nat := (c.S (bits w 43 39) + BitVec.ofNat 64 (bits w 15 0)).toNat

/-- For WAIT and a local SIGNAL the fields RSC and CIMM are reserved (R136). -/
def yLocalResv (w : W64) : Bool := clearOf w (maskOf 48 44 + maskOf 23 16)

/-- WAIT stalls until the count is at least k and then subtracts it. (DEDUCED, log 11) -/
def execWaitSem (n : Nat) (s : State) : Out :=
  teamster n 0x71 resvY (fun s k c w =>
    let sem := bits w 54 49
    let m := yCount c w
    if bit w 55 ∨ yLocalResv w = false then .bad rIllegalShape (bits w 63 32) 3
    else if m > 65535 then .bad rSemOverflow sem 3
    else if m ≤ c.sem sem then .done (s.setCore k (c.setSem sem (c.sem sem - m)).advance)
    else .done ((s.setCore k { c with wait := some (sem, m) }).trace (k / 9) n 0 5 c.ctag c.cmdcnt)) s

/-- A stalled WAIT finds the count at least k. -/
def execWaitSatisfied (n : Nat) (s : State) : Out :=
  if s.phase ≠ .up then .refused .cannotOccur
  else match s.slotOf n with
  | none => .refused .noSuchUnit
  | some k =>
    let c := s.core k
    match c.wait with
    | none => .refused .cannotOccur
    | some (sem, m) =>
      if c.run = true ∧ c.stopped = false ∧ m ≤ c.sem sem then
        .next (((s.setCore k { (c.setSem sem (c.sem sem - m)) with wait := none, pc := c.pc + 1 }).trace
          (k / 9) n 0 6 c.ctag c.cmdcnt).stepDone k n)
      else .refused .cannotOccur

/-- The partition that owns a Team, if one does. -/
def State.partOfTeam (s : State) (t : Nat) : Option Nat :=
  (List.range 8).find? fun p =>
    let x := tget (fun _ => ({} : Part)) s.parts p
    x.live && decide (x.teams / 2 ^ t % 2 = 1)

/-- Two logical cores are of one partition. -/
def State.samePart (s : State) (a b : Nat) : Bool := decide (s.partOfTeam (a / 8) = s.partOfTeam (b / 8))

def fence0 : Nat → Fence := fun _ => {}
/-- The fence of a domain by DTYPE and instance (Table RL-2). -/
def State.fence (s : State) (dtype inst : Nat) : Fence := tget fence0 s.fences (256 * dtype + inst)
def State.setFence (s : State) (dtype inst : Nat) (x : Fence) : State :=
  { s with fences := tset fence0 s.fences (256 * dtype + inst) x }

/-- The fence of a core is closed. -/
def State.coreFenced (s : State) (n : Nat) : Bool := (s.fence 0 n).closed

/-- The fence of a Team is closed, or it is FAILED: its cores and its claims are absent (Table RL-5).
(DEDUCED, log 110) -/
def State.teamFenced (s : State) (t : Nat) : Bool := (s.fence 1 t).closed

/-- A report of a domain that waits for the snapshot counts one more in its 32-bit word `i`. -/
def Ev.addReport (dtype inst i : Nat) (e : Ev) : Ev :=
  match e with
  | .fenceReport d m ws =>
    if d = dtype ∧ m = inst then .fenceReport d m (ws.set i (BitVec.ofNat 32 (min ((ws.getD i 0#32).toNat + 1) (2 ^ 32 - 1)))) else e
  | _ => e

/-- Count one more in word `i` of a domain's fence report, while it waits or the log still holds it (R469). -/
def State.countReport (s : State) (dtype inst i : Nat) : State :=
  match (s.fence dtype inst).report with
  | none => { s with events := s.events.map (Ev.addReport dtype inst i) }
  | some e => if fieldOf (s.rd (0x801000 + 64 * e + 4)) 20 12 ≠ 256 * dtype + inst then s else s.addF (F.RAS_FENCE_LOG_DATA (16 * e + i)) 1

/-- The reason that answers a request to a core behind a closed fence, or that has become absent (R468).
(DEDUCED, log 110) -/
def State.coreAway (s : State) (n : Nat) : Option Nat :=
  if s.coreFenced n then some rFence else if s.slotOf n = none then some rUnitAbsent else none

/-- The checks on the target core of a remote signal (R136): its reason where it is refused. -/
def State.targetCheck (s : State) (n target : Nat) : Option Nat :=
  match s.slotOf target with
  | none => some rUnitAbsent
  | some _ => if s.teamFenced (target / 8) then some rUnitAbsent
              else if s.samePart n target then none else some rPermission

def execSignalSem (n : Nat) (s : State) : Out :=
  teamster n 0x72 resvY (fun s k c w =>
    let sem := bits w 54 49
    let m := yCount c w
    let target := if bit w 55 then (c.S (bits w 48 44) + BitVec.ofNat 64 (bits w 23 16)).toNat else n
    if bit w 55 = false ∧ yLocalResv w = false then .bad rIllegalShape (bits w 63 32) 3
    else if m > 65535 then .bad rSemOverflow sem 3
    else match (if bit w 55 then s.targetCheck n target else none) with
    | some r => .bad r target 3
    | none =>
      if target = n then
        match c.addSem sem m with
        | none => .bad rSemOverflow sem 3
        | some c' => .done (s.setCore k c'.advance)
      else if m = 0 then .done (s.setCore k c.advance)
      else
        let g : Sig := { src := n, dst := target, sem := sem, amount := m, source := 0, cmdcnt := c.cmdcnt,
                         tag := c.ctag, pc := c.pc, overflow := false }
        .done { (s.setCore k { c with outstanding := c.outstanding + 1 }.advance) with sigs := s.sigs ++ [g] }) s

/-! ### Stops (R98, R138) and unassigned opcodes (R125) -/

def execHalt (n : Nat) (s : State) : Out :=
  teamster n 0xF0 resvNone (fun s k c _ =>
    .done ((s.setCore k { c with run := false }).trace (k / 9) n 0 7 c.ctag c.cmdcnt)) s

/-- BRK stops the Teamster on itself; the code is reported to the DBG block at once. -/
def execBrk (n : Nat) (s : State) : Out :=
  teamster n 0xF1 resvBrk (fun s k c w =>
    .done (((s.setCore k c).debugStop k 1 0 (bits w 15 0)).trace (k / 9) n 0 8 (bits w 15 0) c.cmdcnt)) s

/-- The opcodes that Table XR-2 assigns. -/
def assignedOpcodes : List Nat :=
  [0x00, 0x01, 0x02, 0x03, 0x04, 0x05, 0x06, 0x07, 0x08, 0x09, 0x0A, 0x11, 0x13, 0x14, 0x15, 0x16, 0x17, 0x18, 0x19,
   0x1A, 0x1B, 0x1C, 0x20, 0x21, 0x22, 0x24, 0x25, 0x26, 0x27, 0x30, 0x31, 0x32, 0x33, 0x34, 0x35, 0x36, 0x38, 0x39,
   0x3A, 0x3B, 0x40, 0x41, 0x42, 0x43, 0x44, 0x45, 0x48, 0x49, 0x50, 0x51, 0x52, 0x58, 0x59, 0x60, 0x61, 0x62, 0x70,
   0x71, 0x72, 0x73, 0xF0, 0xF1]

def execUnassignedOpcode (n : Nat) (s : State) : Out :=
  if s.phase ≠ .up then .refused .cannotOccur
  else match s.slotOf n with
  | none => .refused .noSuchUnit
  | some k =>
    let c := s.core k
    if c.run = true ∧ c.stopped = false ∧ c.wait = none ∧ c.pc < c.nInst then
      let w := tget sreg0 c.istore c.pc
      if opcodeOf w ∈ assignedOpcodes then .refused .otherInstruction
      else .next (s.tfault k n c rIllegalShape (bits w 63 32) 3)
    else .refused .cannotOccur

end Sys2Proof.Machine
end

