-- ==== Sys2Proof/Machine/Access.lean ====
section
/-!
DEFINITION. Where an operand reference leads (R139, R140, R270), the checks on it at ISSUE, and the
reads and writes through it. An access that fails at its address answers its reason and detail.
-/
namespace Sys2Proof.Machine

/-! ### GDDR6 geometry (R26, R263) -/

def gddrPair (a : Nat) : Nat := a / 0x100000 % 8

/-- The usable capacity in bytes. -/
def State.gddrTop (s : State) : Nat :=
  match s.getF F.GDDR_STATUS_CAPACITY with
  | 1 => 0x3E0000000
  | 2 => 0x7C0000000
  | _ => 0

/-- A pair is out of service when one of its channels has FAILED. -/
def State.pairOk (s : State) (p : Nat) : Bool :=
  decide (s.getF (F.GDDR_CH_STATE_CH_c (2 * p)) ≠ 2 ∧ s.getF (F.GDDR_CH_STATE_CH_c (2 * p + 1)) ≠ 2)

/-- The address lies in GDDR6, in a pair that is out of service: it is treated as unpopulated (R265). (DESIGN CHOICE, log 34) -/
def State.outOfService (s : State) (a : Nat) : Bool := decide (a < 0x000800000000) && !s.pairOk (gddrPair a)

/-! ### Objects -/

def obj0 : Nat → Obj := fun _ => {}
def objKey (part id : Nat) : Nat := 65536 * part + id
def State.obj (s : State) (part id : Nat) : Obj := tget obj0 s.objs (objKey part id)
def State.setObj (s : State) (part id : Nat) (x : Obj) : State :=
  { s with objs := tset obj0 s.objs (objKey part id) x }

/-- The partition of a logical core; cores of no partition share number 8. -/
def State.partOf (s : State) (n : Nat) : Nat := (s.partOfTeam (n / 8)).getD 8

def segSize : Nat := 0x100000

/-- Where a segment lies at present: in the Pool or at its home. -/
def Seg.base (g : Seg) : Option Nat := match g.pool with
  | some a => some a
  | none => g.home

/-- The device physical address of an object's byte. -/
def Obj.addr (x : Obj) (off : Nat) : Option Nat :=
  match x.segs[off / segSize]? with
  | none => none
  | some g => g.base.map fun b => b + off % segSize

def Obj.inPool (x : Obj) (off : Nat) : Bool :=
  match x.segs[off / segSize]? with
  | none => false
  | some g => g.pool.isSome

/-- Every segment that bytes `lo` up to `hi` reach lies in the Pool (R140). -/
def Obj.poolExtent (x : Obj) (lo hi : Nat) : Bool :=
  decide (hi ≤ lo) || ((List.range ((hi - 1) / segSize + 1 - lo / segSize)).all fun i =>
    x.inPool ((lo / segSize + i) * segSize))

/-- 64-byte granules that an access touches (R273). -/
def granules (off len : Nat) : Nat := if len = 0 then 0 else (off + len - 1) / 64 + 1 - off / 64

/-- The Team whose Pool slice holds an address. -/
def poolTeam (a : Nat) : Option Nat := if poolBase 0 ≤ a ∧ a < poolBase 8 then some ((a - poolBase 0) / 0x800000) else none

/-- A request has reached a Team's Pool slice, or a job is at work there: its Team is not idle in this tick (R82). -/
def Team.seen (m : Team) : Team := { m with busySeen := true, sliceSeen := true }

/-- A request has reached the Pool slice that holds segment `i`. -/
def State.noteSlice (x : Obj) (s : State) (i : Nat) : State :=
  match (x.segs[i]?).bind fun g => g.pool.bind poolTeam with
  | some t => s.modTeam t Team.seen
  | none => s

/-- Segments that an access touches. -/
def segRange (off len : Nat) : List Nat :=
  if len = 0 then [] else (List.range ((off + len - 1) / segSize + 1 - off / segSize)).map (off / segSize + ·)

def State.touch (s : State) (part id off len : Nat) : State :=
  let x := s.obj part id
  ((segRange off len).foldl (State.noteSlice x) s).setObj part id { x with touched := x.touched + granules off len }

/-- Why an agent's read of `len` bytes at a device address fails (R27, R31): an address that is not populated, or an
uncorrectable error; with the first such address. -/
def State.memBad (s : State) (a len : Nat) : Option (Nat × Nat) :=
  let dead (b : Nat) : Bool := s.outOfService b || decide (b < 0x000800000000 ∧ s.gddrTop ≤ b)
  match (List.range len).find? fun i => dead (a + i) || s.ueHit (a + i) 1 with
  | none => none
  | some i => some (if dead (a + i) then rPermission else rUncorrectable, a + i)

/-! ### Checks of a reference at ISSUE (R140) -/

/-- Which spaces a field of a command accepts. -/
structure Spaces where
  loc : Bool := true
  remote : Bool := true
  sameTeam : Bool := false
  object : Bool := true
  pinned : Bool := false
  queue : Bool := true
  write : Bool := false
deriving DecidableEq, Repr

/-- The check on a core that a reference names. -/
def State.coreCheck (s : State) (n c : Nat) (sp : Spaces) : Option (Nat × Nat) :=
  match s.targetCheck n c with
  | some r => some (r, c)
  | none => if sp.sameTeam ∧ c / 8 ≠ n / 8 then some (rPermission, c) else none

/-- The check of a reference of logical core `n` whose command reaches `len` bytes from its offset.
(DEDUCED, log 12) -/
def State.refCheck (s : State) (n top : Nat) (sp : Spaces) (w : W64) (len : Nat) : Option (Nat × Nat) :=
  match refOf w with
  | none => some (rIllegalShape, 0)
  | some (.loc off) =>
    if sp.loc = false then some (rPermission, off)
    else if len ≠ 0 ∧ top < off + len then some (rLengthBounds, off) else none
  | some (.remote c off) =>
    if sp.remote = false then some (rPermission, off)
    else match s.coreCheck n c sp with
    | some e => some e
    | none => if len ≠ 0 ∧ storeSize < off + len then some (rLengthBounds, off) else none
  | some (.object id off) =>
    let x := s.obj (s.partOf n) id
    if sp.object = false ∨ x.stage ≠ 2 then some (rPermission, off)
    else if sp.write ∧ x.ro then some (rPermission, off)
    else if len ≠ 0 ∧ x.size < off + len then some (rLengthBounds, off)
    else if sp.pinned ∧ (x.pin = false ∨ x.poolExtent off (off + len) = false) then some (rPermission, off)
    else none
  | some (.queue c _) =>
    if sp.queue = false then some (rPermission, 0)
    else match c with
    | none => none
    | some c => s.coreCheck n c sp

/-! ### Reads and writes -/

inductive Acc where
  | ok (bytes : List Nat) (s : State)
  | bad (reason detail : Nat) (s : State)
deriving DecidableEq, Repr

/-- The physical addresses of an object's bytes from an offset; `none` where one is unplaced. -/
def Obj.addrs (x : Obj) (off : Nat) : Nat → Option (List Nat)
  | 0 => some []
  | n + 1 => match x.addr off, x.addrs (off + 1) n with
    | some a, some l => some (a :: l)
    | _, _ => none

def State.stAt (s : State) : List Nat → List Nat → State
  | a :: as, b :: bs => (s.st8 a b).stAt as bs
  | _, _ => s

/-- Read bytes of a store, faulting on an uncorrectable error. -/
def State.rdStore (s : State) (c off len : Nat) : Acc :=
  if s.ueHit (storeBase c + off) len then .bad rUncorrectable off (s.logStoreUe c off)
  else .ok (s.ldBytes (storeBase c + off) len) s

/-! #### Bound weights (R426, R428) -/

def key0 : Nat → KeySlot := fun _ => {}
def State.keySlot (s : State) (i : Nat) : KeySlot := tget key0 s.keys i

/-- The plaintext of the ciphertext block `i` at an address: AES-256-GCM under a nonce of the prefix and
`i`, with no AAD, and the block's tag from the tag table. -/
def State.openBlock (s : State) (k : KeySlot) (i a : Nat) : Option (List Nat) :=
  Config.gcmOpen k.key (leNat (leBytes 4 k.noncePrefix ++ leBytes 8 i)) [] (s.ldBytes a 4096) (s.ldN (k.tags + 16 * i) 16)

/-- The plaintext of block `i` of a BOUND object: in the Pool it is plain. -/
def State.boundBlock (s : State) (x : Obj) (i : Nat) : Option (List Nat) :=
  match x.addr (4096 * i) with
  | none => none
  | some a => if x.inPool (4096 * i) then some (s.ldBytes a 4096) else s.openBlock (s.keySlot x.keySlot) i a

/-- Plaintext of `n` blocks from block `i`, or the first offset of the block whose tag fails. -/
def State.boundBlocks (s : State) (x : Obj) (i : Nat) : Nat → Except Nat (List Nat)
  | 0 => .ok []
  | n + 1 => match s.boundBlock x i with
    | none => .error (4096 * i)
    | some b => match s.boundBlocks x (i + 1) n with
      | .error o => .error o
      | .ok l => .ok (b ++ l)

/-- The Pool slice of an address, where its fence is closed. -/
def State.shutSlice (s : State) (a : Nat) : Option Nat :=
  (s.fences.find? fun e => e.2.closed && decide (e.1 / 256 = 2 ∧ poolBase (e.1 % 256) ≤ a ∧ a < poolBase (e.1 % 256 + 1))).map
    fun e => e.1 % 256

/-- The answer to a request for object bytes in a Pool slice behind a closed fence, until R278 has acted at the next edge;
it counts in REQ_ABORTED of the slice's report (R468, R469). (DEDUCED, log 110) -/
def State.shutAcc (s : State) (id off : Nat) (as : List Nat) : Option Acc :=
  (as.findSome? s.shutSlice).map fun t => .bad rFence off { s.countReport 2 t 3 with errPlace := (id, off) }

/-- Read bytes of an object. Reads of a LOST object or an unplaced segment fault (R278). With `pinned`,
a segment that R278 has returned home faults with PERMISSION (R140). A BOUND block whose tag fails
faults with INTEGRITY (R428). -/
def State.rdObj (s : State) (part id off len : Nat) (pinned : Bool) : Acc :=
  let x := s.obj part id
  if pinned ∧ x.poolExtent off (off + len) = false then .bad rPermission off s
  else if x.lost then .bad rUncorrectable off { s with errPlace := (id, off) }
  else match x.addrs off len with
  | none => .bad rUncorrectable off { s with errPlace := (id, off) }
  | some as =>
    (s.shutAcc id off as).getD <|
    match (if as.any s.outOfService then none else some (as.find? fun a => s.ueHit a 1)) with
    | none => .bad rPermission off s
    | some (some a) => .bad rUncorrectable off (s.logUe a id off)
    | some none =>
      if x.bound then
        match s.boundBlocks x (off / 4096) (if len = 0 then 0 else (off + len - 1) / 4096 + 1 - off / 4096) with
        | .error o => .bad rIntegrity o { s.addF F.TRUST_INTEGRITY_COUNT 1 with errPlace := (id, o) }
        | .ok b => .ok ((b.drop (off % 4096)).take len) (s.touch part id off len)
      else .ok (as.map s.ld8) (s.touch part id off len)

/-- The granules, by their offset, that a write fills in part and so reads first (R264). -/
def partGranules (off len : Nat) : List Nat :=
  if len = 0 then []
  else [off / 64 * 64, (off + len) / 64 * 64].filter fun g => decide (g < off + len ∧ ¬ (off ≤ g ∧ g + 64 ≤ off + len))

/-- The granules that a write fills whole. -/
def fullGranules (off len : Nat) : List Nat :=
  (List.range ((off + len) / 64 - (off + 63) / 64)).map fun i => ((off + 63) / 64 + i) * 64

/-- The errors of whole granules go. -/
def State.ueWhole (s : State) (x : Obj) (gs : List Nat) : State :=
  gs.foldl (fun t g => match x.addr g with
    | some a => t.ueClear a 64
    | none => t) s

/-- Bytes that a write also writes to the home of a segment whose demotion has been copied: whole lines (R275, R276).
(DESIGN CHOICE, log 32) -/
def Obj.mirrored (x : Obj) (off len : Nat) : Nat :=
  if x.ro then 0
  else 64 * ((List.range (granules off len)).filter fun i => match x.segs[(off / 64 + i) * 64 / segSize]? with
    | some g => g.copied && decide (g.move = some none)
    | none => false).length

/-- Write bytes of an object. A segment without a place takes none of them (DESIGN CHOICE, log 33); a granule filled in part
is read first, and where it holds an uncorrectable error nothing is written (R264). -/
def State.wrObj (s : State) (part id off : Nat) (bytes : List Nat) (pinned : Bool) : Acc :=
  let x := s.obj part id
  if pinned ∧ x.poolExtent off (off + bytes.length) = false then .bad rPermission off s
  else match x.addrs off bytes.length with
  | none => .ok [] (s.touch part id off bytes.length)
  | some as =>
    (s.shutAcc id off as).getD <|
    match (if as.any s.outOfService then none
           else some ((partGranules off bytes.length).filterMap x.addr |>.find? fun a => s.ueHit a 64)) with
    | none => .bad rPermission off s
    | some (some a) => .bad rUncorrectable off (s.logUe a id off)
    | some none =>
      let s1 := ((s.stAt as bytes).touch part id off bytes.length).ueWhole x (fullGranules off bytes.length)
      let m := x.mirrored off bytes.length
      .ok [] (if m = 0 then s1 else s1.addF F.STAB_MIG_USED_BYTES m)

def State.wrStore (s : State) (c off : Nat) (bytes : List Nat) : State :=
  (s.stBytes (storeBase c + off) bytes).ueClear (storeBase c + off) bytes.length

/-- The answer to a request that targets another core's domain, where it is away; it counts in REQ_ABORTED of the
domain's fence report (R468, R469). (DEDUCED, log 110) -/
def State.awayAcc (s : State) (n c : Nat) : Option Acc :=
  if c = n then none
  else match s.coreAway c with
  | none => none
  | some r => some (.bad r c (s.countReport 0 c 3))

/-- Read `len` bytes at `d` beyond a reference's offset, for logical core `n`. -/
def State.rdRef (s : State) (n : Nat) (r : Ref) (d len : Nat) (pinned : Bool) : Acc :=
  match r with
  | .loc off => s.rdStore n (off + d) len
  | .remote c off => (s.awayAcc n c).getD (s.rdStore c (off + d) len)
  | .object id off => s.rdObj (s.partOf n) id (off + d) len pinned
  | .queue _ _ => .bad rPermission 0 s

/-- Write bytes at `d` beyond a reference's offset. -/
def State.wrRef (s : State) (n : Nat) (r : Ref) (d : Nat) (bytes : List Nat) (pinned : Bool) : Acc :=
  match r with
  | .loc off => .ok [] (s.wrStore n (off + d) bytes)
  | .remote c off => (s.awayAcc n c).getD (.ok [] (s.wrStore c (off + d) bytes))
  | .object id off => s.wrObj (s.partOf n) id (off + d) bytes pinned
  | .queue _ _ => .bad rPermission 0 s

/-! ### Queues named by a reference or a field -/

/-- The core whose queue a reference names. -/
def queueCore (n : Nat) (c : Option Nat) : Nat := c.getD n

/-- The check of a queue at an engine's head: enabled, below STORE_TOP, and its elements of `size`
bytes; `zc` says whether it must hold compressed rows (R100, R102, R103). -/
def State.queueCheck (s : State) (n q size : Nat) (zc : Bool) : Option (Nat × Nat) :=
  match s.slotOf n with
  | none => some (rUnitAbsent, n)
  | some k =>
    let c := s.core k
    let x := c.queue q
    if x.depth = 0 ∨ esizeBytes x.esize ≠ size ∨ x.zc ≠ zc then some (rIllegalShape, q)
    else if c.ringOk x = false then some (rLengthBounds, q)
    else none

/-- The ring of a core's queue no longer lies below STORE_TOP: the next push or pop faults (R100). -/
def State.ringBad (s : State) (n q : Nat) : Bool :=
  match s.slotOf n with
  | none => false
  | some k => !(s.core k).ringOk ((s.core k).queue q)

/-- The check of a destination queue of the arrays: only rows that are compressed ask for a ZC queue (R143). -/
def State.destCheck (s : State) (n q size : Nat) (zc : Bool) : Option (Nat × Nat) :=
  match s.slotOf n with
  | none => some (rUnitAbsent, n)
  | some k => s.queueCheck n q size (zc || ((s.core k).queue q).zc)

/-- A queue of a core, with room for one more element. -/
def State.roomAt (s : State) (n q : Nat) : Bool :=
  match s.slotOf n with
  | none => false
  | some k => ((s.core k).queue q).hasRoom

def State.pushAt (s : State) (n q : Nat) (bytes : List Nat) : State :=
  match s.slotOf n with
  | none => s
  | some k => s.push n k q bytes

def State.popAt (s : State) (n q : Nat) : Option (List Nat × State) :=
  match s.slotOf n with
  | none => none
  | some k => s.pop n k q

/-- The head element of a core's queue: nothing while it is empty; a fault where its ring no longer lies below STORE_TOP
(R100) or where it holds an uncorrectable error. -/
def State.popAcc (s : State) (n q : Nat) : Option Acc :=
  match s.slotOf n with
  | none => none
  | some k =>
    let x := (s.core k).queue q
    match s.pop n k q with
    | none => none
    | some (b, t) => if s.ringBad n q then some (.bad rLengthBounds q s)
                     else if s.ueHit (storeBase n + x.base + x.head) b.length then
        some (.bad rUncorrectable (x.base + x.head) (s.logStoreUe n (x.base + x.head)))
                     else some (.ok b t)

def State.countAt (s : State) (n q : Nat) : Nat :=
  match s.slotOf n with
  | none => 0
  | some k => ((s.core k).queue q).count

end Sys2Proof.Machine
end

