-- ==== Sys2Proof/Machine/Check.lean ====
section
/-!
DEFINITION. The checks of an engine command at ISSUE (R111, R140 to R158, R174 to R179). Where more
than one fails, a bad shape is found first, then an absent unit or a permission, then an extent
(DEDUCED; notes/assumptions/12.md).
-/
namespace Sys2Proof.Machine

/-- The first refusal of a list of checks. -/
def firstBad : List (Option (Nat × Nat)) → Option (Nat × Nat)
  | [] => none
  | some e :: _ => some e
  | none :: t => firstBad t

def shape (ok : Bool) (detail : Nat := 0) : Option (Nat × Nat) := if ok then none else some (rIllegalShape, detail)

/-- Bytes from `a` on lie below `top`; nothing is checked of an empty extent. -/
def below (top a len : Nat) : Option (Nat × Nat) :=
  if len ≠ 0 ∧ top < a + len then some (rLengthBounds, a) else none

/-! ### MMUL and MDRAIN (Table XR-7, R143, R148) -/

def Cmd.amask (c : Cmd) : Nat := bits c.w0 31 28
def Cmd.pass (c : Cmd) : Nat := bits c.w0 27 26
def Cmd.handle (c : Cmd) : Nat := bits c.w0 25 22
def Cmd.ntiles (c : Cmd) : Nat := bits c.w0 21 18
def Cmd.xslot (c : Cmd) : Nat := bits c.w0 17 16
def Cmd.fmt (c : Cmd) : Nat := bits c.w2 63 60
def Cmd.keep (c : Cmd) : Bool := bit c.w2 59
def Cmd.we5m2 (c : Cmd) : Bool := bit c.w2 58
def Cmd.ae5m2 (c : Cmd) : Bool := bit c.w2 57
def Cmd.mRows (c : Cmd) : Nat := bits c.w2 56 44
def Cmd.kElems (c : Cmd) : Nat := bits c.w2 43 36
def Cmd.nCols (c : Cmd) : Nat := bits c.w2 35 29
def Cmd.esc (c : Cmd) : Nat := bits c.w2 28 27
def Cmd.abuf (c : Cmd) : Bool := bit c.w2 26
def Cmd.dbuf (c : Cmd) : Bool := bit c.w3 63
def Cmd.ereca (c : Cmd) : Nat := bits c.w3 62 45 * 8

/-- Array `i` is enabled. -/
def Cmd.arrayOn (c : Cmd) (i : Nat) : Bool := decide (c.amask / 2 ^ i % 2 = 1)
/-- The enabled arrays, in ascending order. -/
def Cmd.arrays (c : Cmd) : List Nat := (List.range 4).filter c.arrayOn

/-- The queue of array `i` in ASRC or DDST. -/
def arrQueue (w : W64) (i : Nat) : Nat := w.toNat / 2 ^ (5 * i) % 32
/-- The buffer of array `i` in ASRC or DDST (R144). -/
def arrBuf (w : W64) (i : Nat) : Nat := 256 * bits w 25 13 + 256 * i * bits w 12 0

/-- Bytes of an activation row (R64). -/
def Cmd.actBytes (c : Cmd) : Nat := if c.fmt = 3 ∨ c.fmt = 4 ∨ c.fmt = 5 then 128 else 64
/-- Bytes of a weight tile (Table TC-2). -/
def Cmd.tileBytes (c : Cmd) : Nat := if c.fmt = 3 ∨ c.fmt = 4 then 8192 else 4096

/-- An MMUL whose AMASK, M, K or N is zero (R143). -/
def Cmd.mmulEmpty (c : Cmd) : Bool := decide (c.amask = 0 ∨ c.mRows = 0 ∨ c.kElems = 0 ∨ c.nCols = 0)

def checkMmul (s : State) (n top : Nat) (c : Cmd) : Option (Nat × Nat) :=
  firstBad [
    shape (decide (c.mRows ≤ 4096 ∧ c.nCols ≤ 64 ∧ c.kElems ≤ (if c.fmt = 1 then 128 else 64) ∧ c.fmt < 6)),
    shape (decide (¬ ((c.we5m2 ∨ c.ae5m2) ∧ c.fmt ≠ 2))),
    shape (decide (c.esc ≠ 3 ∧ ¬ (c.esc ≠ 0 ∧ c.pass < 2))),
    shape (decide (¬ (c.pass = 0 ∧ (c.ntiles = 0 ∨ 8 < c.ntiles ∨ 64 * c.ntiles < c.mRows)))),
    shape (clearOf c.w3 (maskOf 44 26) && (c.dbuf || clearOf c.w3 (maskOf 25 20))),
    shape (c.abuf || clearOf c.w2 (maskOf 25 20)),
    if c.keep then none else firstBad [
      match refOf c.w1 with
      | some (.loc off) => shape (decide (off % 64 = 0)) off
      | some (.object _ off) => shape (decide (off % 64 = 0)) off
      | none => some (rIllegalShape, 0)
      | _ => none,
      s.refCheck n top { remote := false, queue := false, pinned := true } c.w1 c.tileBytes],
    if c.abuf then firstBad (c.arrays.map fun i => below top (arrBuf c.w2 i) (c.mRows * c.actBytes)) else none,
    if c.esc = 0 then none else below top c.ereca 8]

def checkMfree (c : Cmd) : Option (Nat × Nat) :=
  shape (clearOf c.w0 (maskOf 31 26 + maskOf 21 16) && decide (c.w1 = 0#64 ∧ c.w2 = 0#64 ∧ c.w3 = 0#64))

def checkMdrain (top : Nat) (c : Cmd) : Option (Nat × Nat) :=
  firstBad [
    shape (clearOf c.w0 (maskOf 27 26 + maskOf 21 18) && decide (c.w1 = 0#64)),
    shape (clearOf c.w2 (maskOf 63 57 + maskOf 43 29 + maskOf 26 0)),
    shape (decide (c.esc < 2 ∧ c.mRows ≤ 4096)),
    shape (clearOf c.w3 (maskOf 44 26) && (c.dbuf || clearOf c.w3 (maskOf 25 20))),
    if c.esc = 0 then none else below top c.ereca 8]

def checkXcfg (top : Nat) (c : Cmd) : Option (Nat × Nat) :=
  firstBad [
    shape (clearOf c.w0 (maskOf 31 18) && decide (c.w2 = 0#64 ∧ c.w3 = 0#64)),
    match refOf c.w1 with
    | some (.loc off) => firstBad [shape (decide (off % 64 = 0)) off, below top off 128]
    | _ => shape false]

/-! ### DMOVE (Table XR-10, R153) -/

def Cmd.dmode (c : Cmd) : Nat := bits c.w0 31 30
def Cmd.dadd (c : Cmd) : Nat := bits c.w0 29 28
def Cmd.dte (c : Cmd) : Nat := 2 ^ bits c.w0 27 26
def Cmd.sstride (c : Cmd) : Nat := bits c.w3 63 44
def Cmd.dstride (c : Cmd) : Nat := bits c.w3 43 24
def Cmd.dlen (c : Cmd) : Nat := bits c.w3 23 12
def Cmd.drows (c : Cmd) : Nat := bits c.w3 11 0

/-- The reach of `rows` rows of `len` bytes at a stride. -/
def reach (rows stride len : Nat) : Nat := if rows = 0 ∨ len = 0 then 0 else (rows - 1) * stride + len

/-- Output rows and their bytes. -/
def Cmd.outRows (c : Cmd) : Nat := if c.dmode = 1 then c.dlen / c.dte else c.drows
def Cmd.outLen (c : Cmd) : Nat := if c.dmode = 1 then c.drows * c.dte else c.dlen

def Cmd.dmoveEmpty (c : Cmd) : Bool := decide (c.drows = 0 ∨ c.dlen = 0)

/-- The checks at ISSUE. An add-on-write to an object that is not pinned to the Pool is refused with ILLEGAL_SHAPE, as R153
says of it, where R140 gives PERMISSION in general (DEDUCED, log 12). Bound weights go to core stores only (R429). -/
def checkDmove (s : State) (n top : Nat) (c : Cmd) : Option (Nat × Nat) :=
  let pinnedDst := match refOf c.w2 with
    | some (.object _ _) => true
    | _ => false
  let ext := if c.dmoveEmpty then 0 else reach c.outRows c.dstride c.outLen
  firstBad [
    shape (clearOf c.w0 (maskOf 25 16)),
    shape (decide (bits c.w0 27 26 ≠ 3 ∧ c.dadd ≠ 3)),
    shape (decide (¬ (c.dmode = 1 ∧ (c.dlen % c.dte ≠ 0 ∨ 4095 < c.drows * c.dte)))),
    shape (decide (¬ (c.dmode = 2 ∧ c.dlen % 64 ≠ 0))),
    shape (decide (¬ (c.dadd ≠ 0 ∧ (pinnedDst = false ∨ c.dlen % 4 ≠ 0)))),
    if c.dmode = 3 then none
    else s.refCheck n top {} c.w1 (if c.dmode = 2 then c.drows * c.dlen / 8 else reach c.drows c.sstride c.dlen),
    s.refCheck n top { write := true } c.w2 ext,
    match refOf c.w2 with
    | some (.object id off) =>
      let x := s.obj (s.partOf n) id
      shape (decide (c.dadd = 0) || (x.pin && x.poolExtent off (off + ext)))
    | _ => none,
    match (if c.dmode = 3 then none else refOf c.w1), refOf c.w2 with
    | some (.object id _), some (.object _ off) => if (s.obj (s.partOf n) id).bound then some (rPermission, off) else none
    | _, _ => none]

/-! ### KFETCH and KAPPEND (Table XR-11, R155) -/

def Cmd.kdq (c : Cmd) : Nat := bits c.w0 31 27
def Cmd.kscq (c : Cmd) : Nat := bits c.w0 26 22
def Cmd.kscen (c : Cmd) : Bool := bit c.w0 21
def Cmd.kpart (c : Cmd) : Nat := bits c.w0 20 19
def Cmd.kctx (c : Cmd) : Nat := bits c.w1 63 52
def Cmd.klayer (c : Cmd) : Nat := bits c.w1 51 44
def Cmd.khead (c : Cmd) : Nat := bits c.w1 43 36
def Cmd.kcount (c : Cmd) : Nat := bits c.w2 48 32
def Cmd.kfirst (c : Cmd) : Nat := bits c.w2 16 0

/-- A context lies in a partition's share (R238). -/
def State.kvInShare (s : State) (p ctx : Nat) : Bool :=
  let first := s.getF (F.KVA_CTX_RANGE_FIRST p)
  decide (p < 8 ∧ first ≤ ctx ∧ ctx < first + s.getF (F.KVA_CTX_RANGE_COUNT p))

def checkKv (s : State) (n : Nat) (append : Bool) (c : Cmd) : Option (Nat × Nat) :=
  firstBad [
    shape (clearOf c.w0 (maskOf 18 16) && clearOf c.w1 (maskOf 35 0) && clearOf c.w2 (maskOf 63 49 + maskOf 31 17)
      && decide (c.w3 = 0#64) && decide (¬ (append ∧ c.kfirst ≠ 0))),
    if s.kvInShare (s.partOf n) c.kctx then none else some (rPermission, c.kctx),
    if 65536 < c.kcount then some (rLengthBounds, c.kcount) else none]

/-! ### Edge and FFT commands (R156 to R158) -/

/-- Word 1 of an Edge command: a LOCAL reference to a block of 32 bytes, aligned to 32. -/
def checkBlock (top align len : Nat) (w : W64) : Option (Nat × Nat) :=
  match refOf w with
  | some (.loc off) => firstBad [shape (decide (off % align = 0)) off, below top off len]
  | some _ => some (rPermission, 0)
  | none => shape false

def Cmd.eH (c : Cmd) : Nat := bits c.w2 63 52
def Cmd.eW (c : Cmd) : Nat := bits c.w2 51 40
def Cmd.eCI (c : Cmd) : Nat := bits c.w2 39 32
def Cmd.eCO (c : Cmd) : Nat := bits c.w2 31 24
def Cmd.eKH (c : Cmd) : Nat := bits c.w2 23 20
def Cmd.eKW (c : Cmd) : Nat := bits c.w2 19 16
def Cmd.eSH (c : Cmd) : Nat := bits c.w2 15 14 + 1
def Cmd.eSW (c : Cmd) : Nat := bits c.w2 13 12 + 1
def Cmd.eDIL (c : Cmd) : Nat := bits c.w2 11 6 + 1
def Cmd.ePT (c : Cmd) : Nat := bits c.w3 63 60
def Cmd.ePB (c : Cmd) : Nat := bits c.w3 59 56
def Cmd.ePL (c : Cmd) : Nat := bits c.w3 55 52
def Cmd.ePR (c : Cmd) : Nat := bits c.w3 51 48
def Cmd.eOFMT (c : Cmd) : Nat := bits c.w3 47 44

/-- The output size of a window (R156), 0 where it would be below 1. -/
def outDim (size padA padB dil k stride : Nat) : Nat :=
  if size + padA + padB < dil * (k - 1) + 1 then 0 else (size + padA + padB - dil * (k - 1) - 1) / stride + 1

def Cmd.eOH (c : Cmd) : Nat := outDim c.eH c.ePT c.ePB c.eDIL c.eKH c.eSH
def Cmd.eOW (c : Cmd) : Nat := outDim c.eW c.ePL c.ePR c.eDIL c.eKW c.eSW
def Cmd.econvEmpty (c : Cmd) : Bool := decide (c.eH = 0 ∨ c.eW = 0 ∨ c.eCI = 0 ∨ c.eCO = 0)

/-- The checks at ISSUE. An H, W, CI or CO of 0 passes through every one like any other, by R111. -/
def checkEconv (top : Nat) (c : Cmd) : Option (Nat × Nat) :=
  firstBad [
    shape (clearOf c.w0 (maskOf 31 16) && clearOf c.w2 (maskOf 5 0) && clearOf c.w3 (maskOf 43 0)),
    shape (decide (c.eKH ≠ 0 ∧ c.eKH ≤ 7 ∧ c.eKW ≠ 0 ∧ c.eKW ≤ 7 ∧ ¬ (8 < c.eCI ∧ 8 < c.eCO))),
    shape (decide (1 ≤ c.eOH ∧ 1 ≤ c.eOW)),
    shape (decide (c.eOFMT = 1 ∨ c.eOFMT = 7)),
    checkBlock top 32 32 c.w1]

def Cmd.bGH (c : Cmd) : Nat := bits c.w2 63 52
def Cmd.bGW (c : Cmd) : Nat := bits c.w2 51 40
def Cmd.bCLASSES (c : Cmd) : Nat := bits c.w2 39 32
def Cmd.bANCH (c : Cmd) : Nat := bits c.w2 31 28
def Cmd.bMAX (c : Cmd) : Nat := bits c.w3 13 0
def Cmd.nMAXIN (c : Cmd) : Nat := bits c.w2 13 0

def checkEbox (top : Nat) (c : Cmd) : Option (Nat × Nat) :=
  firstBad [
    shape (clearOf c.w0 (maskOf 31 16) && clearOf c.w2 (maskOf 27 0) && clearOf c.w3 (maskOf 47 14)),
    shape (decide (c.bMAX ≤ 8192)), checkBlock top 32 32 c.w1]

def checkEnms (top : Nat) (c : Cmd) : Option (Nat × Nat) :=
  firstBad [
    shape (clearOf c.w0 (maskOf 31 16) && clearOf c.w2 (maskOf 46 14) && clearOf c.w3 (maskOf 63 14)),
    shape (decide (c.bMAX ≤ 8192 ∧ c.nMAXIN ≤ 8192)), checkBlock top 32 32 c.w1]

def Cmd.fINV (c : Cmd) : Bool := bit c.w0 31
def Cmd.fHALF (c : Cmd) : Bool := bit c.w0 30
def Cmd.fTWOD (c : Cmd) : Bool := bit c.w0 29
def Cmd.fLOGA (c : Cmd) : Nat := bits c.w0 28 25
def Cmd.fLOGB (c : Cmd) : Nat := bits c.w0 24 21
def Cmd.fSSTEP (c : Cmd) : Nat := bits c.w3 63 40
def Cmd.fDSTEP (c : Cmd) : Nat := bits c.w3 39 16
def Cmd.fCOUNT (c : Cmd) : Nat := bits c.w3 15 0
/-- Bytes of one transform. -/
def Cmd.fBytes (c : Cmd) : Nat :=
  2 ^ (c.fLOGA + (if c.fTWOD then c.fLOGB else 0)) * (if c.fHALF then 4 else 8)

/-- Where a reference lies, for the overlap rule of FFTC: its space and its offset. -/
def refPlace (n : Nat) : Ref → Option (Nat × Nat)
  | .loc off => some (n, off)
  | .remote c off => some (c, off)
  | .object id off => some (256 + id, off)
  | .queue _ _ => none

/-- Source and destination of one transform overlap without being identical. -/
def fftOverlap (n : Nat) (c : Cmd) : Bool :=
  match (refOf c.w1).bind (refPlace n), (refOf c.w2).bind (refPlace n) with
  | some (sp, so), some (dp, d) =>
    decide (sp = dp) && (List.range c.fCOUNT).any fun i =>
      let a := so + i * c.fSSTEP
      let b := d + i * c.fDSTEP
      decide (a ≠ b ∧ a < b + c.fBytes ∧ b < a + c.fBytes)
  | _, _ => false

def checkFftc (s : State) (n top : Nat) (c : Cmd) : Option (Nat × Nat) :=
  let sp : Spaces := { sameTeam := true, pinned := true, queue := false }
  firstBad [
    shape (clearOf c.w0 (maskOf 20 16)),
    shape (if c.fTWOD then decide (4 ≤ c.fLOGA ∧ c.fLOGA ≤ 8 ∧ 4 ≤ c.fLOGB ∧ c.fLOGB ≤ 8)
           else decide (4 ≤ c.fLOGA ∧ c.fLOGA ≤ 12 ∧ c.fLOGB = 0)),
    shape (!fftOverlap n c),
    s.refCheck n top sp c.w1 (reach c.fCOUNT c.fSSTEP c.fBytes),
    s.refCheck n top { sp with write := true } c.w2 (reach c.fCOUNT c.fDSTEP c.fBytes)]

/-! ### VCALL and VWIN (R174, R176, R179) -/

def Cmd.vEntry (c : Cmd) : Nat := bits c.w0 31 21

/-- An ENTRY at or beyond the last loaded bundle is refused. -/
def checkVcall (core : Core) (c : Cmd) : Option (Nat × Nat) :=
  firstBad [
    shape (clearOf c.w0 (maskOf 20 16)),
    if core.nBund ≤ c.vEntry + 1 then some (rLengthBounds, c.vEntry) else none]

def checkVwin (top : Nat) (c : Cmd) : Option (Nat × Nat) :=
  firstBad [
    shape (clearOf c.w0 (maskOf 31 16) && decide (c.w2 = 0#64 ∧ c.w3 = 0#64)),
    checkBlock top 64 64 c.w1]

/-! ### The common checks (Table XM-3, R141) and the whole -/

/-- The command queue that an opcode belongs to, by the CQ code of Table XR-3. -/
def cqOfOpc (opc : Nat) : Option Nat :=
  if opc = 0x10 ∨ opc = 0x11 ∨ opc = 0x12 then some 0
  else if opc = 0x70 ∨ opc = 0x71 then some 1
  else if opc = 0x30 then some 2
  else if opc = 0x40 ∨ opc = 0x41 then some 3
  else if opc = 0x20 then some 4
  else if opc = 0x50 ∨ opc = 0x51 ∨ opc = 0x52 then some 5
  else if opc = 0x60 then some 6
  else none

/-- The check of one command by its opcode. -/
def checkOp (s : State) (n : Nat) (core : Core) (c : Cmd) : Option (Nat × Nat) :=
  let top := core.storeTop
  if c.opc = 0x10 then checkMmul s n top c
  else if c.opc = 0x11 then checkMfree c
  else if c.opc = 0x12 then checkMdrain top c
  else if c.opc = 0x20 then checkXcfg top c
  else if c.opc = 0x30 then checkDmove s n top c
  else if c.opc = 0x40 then checkKv s n false c
  else if c.opc = 0x41 then checkKv s n true c
  else if c.opc = 0x50 then checkEconv top c
  else if c.opc = 0x51 then checkEbox top c
  else if c.opc = 0x52 then checkEnms top c
  else if c.opc = 0x60 then checkFftc s n top c
  else if c.opc = 0x70 then checkVcall core c
  else if c.opc = 0x71 then checkVwin top c
  else shape false

/-- Every check of R111 that is made at ISSUE to queue `cq`. (DEDUCED, log 12) -/
def issueCheck (s : State) (n : Nat) (core : Core) (cq : Nat) (c : Cmd) : Option (Nat × Nat) :=
  firstBad [
    shape (decide (cqOfOpc c.opc = some cq)),
    if cq = 6 ∧ s.fftPresent (n / 8) = false then some (rUnitAbsent, cq) else none,
    if cq = 5 ∧ s.edgePresent (n / 8) = false then some (rUnitAbsent, cq) else none,
    if c.rsig then (s.targetCheck n c.rcore).map fun r => (r, c.rcore) else none,
    checkOp s n core c]

end Sys2Proof.Machine
end

