-- ==== Sys2Proof/Machine/Issue.lean ====
section
/-!
DEFINITION. ISSUE and TAKE, the completion of engine commands, and semaphore signals between cores
(R62, R107 to R120, R135, R137, R256, R258 to R260, R526, R527).
-/
namespace Sys2Proof.Machine

/-! ### Teams that are gated hold requests (R84, R85) -/

/-- The Team is ON. -/
def State.teamOn (s : State) (t : Nat) : Bool := decide (s.getF (F.TEAM_PWR_STATUS_STATE t) = 0)

/-- A request has reached a Team: it counts against idleness, and a Team that is not ON must wake.
(DEDUCED, log 28) -/
def State.reachTeam (s : State) (t : Nat) : State :=
  s.modTeam t fun x => { x with busySeen := true, heldReq := x.heldReq || !s.teamOn t }

/-- A request to the Team's Pool slice, or work of a job on its cores. -/
def State.reachSlice (s : State) (t : Nat) : State := (s.reachTeam t).modTeam t Team.seen

/-! ### Command queues -/

/-- The depth of a core's command queue by CQ code (Tables XM-9 and XR-3). -/
def Core.cqDepth (c : Core) (cq : Nat) : Nat :=
  match cq with
  | 0 => bits c.split 15 8
  | 1 => bits c.split 23 16
  | 2 => bits c.split 31 24
  | 3 => bits c.split 39 32
  | _ => bits c.split 7 0

def Core.cq (c : Core) (cq : Nat) : List Cmd :=
  match cq with
  | 0 => c.mq
  | 1 => c.vq
  | 2 => c.dq
  | 3 => c.kq
  | _ => c.xq

/-- ISSUE by core `n` to the queue finds space (R62, R108). -/
def State.cqRoom (s : State) (n : Nat) (c : Core) (cq : Nat) : Bool :=
  let share (l : List Cmd) : Bool :=
    decide (l.length < 16 ∧ (l.filter fun x => x.core == n).length < 4)
  if cq = 5 then share (s.team (n / 8)).eq
  else if cq = 6 then share (s.team (n / 8)).fq
  else decide ((c.cq cq).length < c.cqDepth cq)

def Core.enqueue (c : Core) (cq : Nat) (cmd : Cmd) : Core :=
  match cq with
  | 0 => { c with mq := c.mq ++ [cmd] }
  | 1 => { c with vq := c.vq ++ [cmd] }
  | 2 => { c with dq := c.dq ++ [cmd] }
  | 3 => { c with kq := c.kq ++ [cmd] }
  | 4 => { c with xq := c.xq ++ [cmd] }
  | _ => c

def State.enqueue (s : State) (k n cq : Nat) (cmd : Cmd) : State :=
  let s1 := s.modCore k (·.enqueue cq cmd)
  if cq = 5 then s1.modTeam (n / 8) fun t => { t with eq := t.eq ++ [cmd] }
  else if cq = 6 then s1.modTeam (n / 8) fun t => { t with fq := t.fq ++ [cmd] }
  else s1

/-! ### ISSUE (R110, Table XR-3) -/

/-- A patch of one word: ADD to the whole word, or REPLACE. -/
def patchWord (en : Bool) (word mode : Nat) (v : W64) (i : Nat) (w : W64) : W64 :=
  if en ∧ word = i then (if mode = 0 then w + v else v) else w

/-- Patch A, then patch B. -/
def patched (c : Core) (iw : W64) (i : Nat) (w : W64) : W64 :=
  patchWord (bit iw 36) (bits iw 30 29) (bits iw 28 28) (c.S (bits iw 35 31)) i
    (patchWord (bit iw 45) (bits iw 39 38) (bits iw 37 37) (c.S (bits iw 44 40)) i w)

def templateAddr (c : Core) (iw : W64) : Nat :=
  let a := (c.S (fRS1 iw) + BitVec.ofNat 64 (32 * bits iw 15 0)).toNat
  a - a % 32

/-- The command that ISSUE builds from the template at `a`. -/
def State.buildCmd (s : State) (n : Nat) (c : Core) (iw : W64) (a : Nat) : Cmd :=
  let w (i : Nat) : W64 := patched c iw i (BitVec.ofNat 64 (s.ldN (storeBase n + a + 8 * i) 8))
  let tagged := (w 0 &&& ~~~(0xFFFF#64)) ||| BitVec.ofNat 64 (c.ctag % 65536)
  { w0 := tagged, w1 := w 1, w2 := w 2, w3 := w 3, cnt := (c.cmdcnt + 1) % 2 ^ 48, pc := c.pc, core := n }

/-- Breakpoint `b` of slot `k` matches a command (R492). -/
def State.bpMatch (s : State) (k : Nat) (cmd : Cmd) (b : Nat) : Bool :=
  let val := s.getF (F.DBG_BP_VAL_HI_VAL k b) * 2 ^ 32 + s.getF (F.DBG_BP_VAL_LO_VAL k b)
  let mask := s.getF (F.DBG_BP_CTRL_TAG_MASK k b)
  decide (s.getF (F.DBG_BP_CTRL_EN k b) = 1) &&
    (if s.getF (F.DBG_BP_CTRL_KIND k b) = 0 then decide (cmd.cnt = val)
     else decide ((BitVec.ofNat 16 cmd.tag &&& BitVec.ofNat 16 mask) = (BitVec.ofNat 16 val &&& BitVec.ofNat 16 mask)))

/-- Breakpoints match at step 6: the lower index is named, the command is held, the core stops. -/
def State.breakOn (s : State) (k n : Nat) (cmd : Cmd) : State :=
  match (List.range 4).find? (s.bpMatch k cmd) with
  | none => s
  | some b =>
    ((s.modCore k fun c => { c with heldCmds := c.heldCmds ++ [cmd] }).debugStop k 2 b 0).trace (k / 9) n 0 9 cmd.tag cmd.cnt

/-- The fields of a patch that is not enabled are not used, and so reserved (R126). -/
def patchesOk (iw : W64) : Bool :=
  (bit iw 45 || clearOf iw (maskOf 44 37)) && (bit iw 36 || clearOf iw (maskOf 35 28))

def issueBody (n : Nat) : State → Nat → Core → W64 → TOut := fun s k c w =>
  let cq := bits w 55 53
  let a := templateAddr c w
  if patchesOk w = false then .bad rIllegalShape (bits w 63 32) 3
  else if cq = 7 then .bad rIllegalShape (bits w 63 32) 4
  else if cq = 6 ∧ s.fftPresent (n / 8) = false then .bad rUnitAbsent cq 4
  else if cq = 5 ∧ s.edgePresent (n / 8) = false then .bad rUnitAbsent cq 4
  else if s.cqRoom n c cq = false then .stall
  else if c.storeTop < a + 32 then .bad rLengthBounds a 4
  else if s.ueHit (storeBase n + a) 32 then .fail (s.logStoreUe n a) rUncorrectable a
  else
    let cmd := s.buildCmd n c w a
    match issueCheck s n c cq cmd with
    | some (r, d) => .bad r d 4
    | none =>
      let tag := if c.auto then (c.ctag + 1) % 65536 else c.ctag
      let s1 := s.setCore k ({ c with cmdcnt := cmd.cnt, ctag := tag, sent := c.sent ++ [(cmd.cnt, cmd.tag, false)] }.advance)
      .done (((s1.enqueue k n cq cmd).trace (k / 9) n 0 0 cmd.tag cmd.cnt).breakOn k n cmd)

def execIssue (n : Nat) (s : State) : Out := teamster n 0x70 resvIssue (issueBody n) s

/-! ### TAKE (R118 to R120, R137, R260) -/

def tally0 : Nat → TallyCtr := fun _ => {}

/-- Serve a claim: the result of Table XM-4, whether it is DUP, and the counter after. -/
def TallyCtr.claim (t : TallyCtr) : Nat × Bool × TallyCtr :=
  if t.limit ≤ t.next then (2 ^ 63 + t.limit, false, t)
  else
    let i := t.next
    let dup := if i < 4096 then decide (t.bitmap / 2 ^ i % 2 = 1) else decide (i < t.hwm)
    let bm := if i < 4096 ∧ t.bitmap / 2 ^ i % 2 = 0 then t.bitmap + 2 ^ i else t.bitmap
    ((if dup then 2 ^ 62 else 0) + i, dup, { t with next := i + 1, hwm := max t.hwm (i + 1), bitmap := bm })

/-- A claim by slot `k` on counter `x`: it is noted where the core's job has that progress counter
(R348). -/
def State.noteClaim (s : State) (k x tile : Nat) : State :=
  match (s.core k).job with
  | none => s
  | some j =>
    if (s.job j).pen ∧ (s.job j).pctr = x then s.modCore k fun c => { c with claims := c.claims ++ [(tile, c.cmdcnt)] }
    else s

def takeBody (n : Nat) : State → Nat → Core → W64 → TOut := fun s k c w =>
  let x := (c.S (fRS1 w) + fImmS w).toNat
  let t := x / 256
  let ctr := (s.team t).tally
  if 2048 ≤ x then .bad rLengthBounds x 3
  else if s.teamPresent t = false ∨ s.teamFenced t = true then .bad rUnitAbsent t 3
  else if s.samePart n (8 * t) = false then .bad rPermission t 3
  else if s.teamOn t = false then .hold (s.reachTeam t)
  else
    let y := tget tally0 ctr (x % 256)
    if y.epoch ≠ c.epoch ∨ y.epoch = 0 then .bad rPermission (x % 256) 3
    else
      let (res, dup, y') := y.claim
      let s1 := (s.reachTeam t).modTeam t fun tm => { tm with tally := tset tally0 tm.tally (x % 256) y' }
      let s2 := if dup then (s1.addF (F.TALLY_DUP_COUNT_COUNT t) 1).markJob k fun j => { j with dupClaim := true } else s1
      let s3 := s2.noteClaim k x (if res < 2 ^ 63 then res % 2 ^ 32 else 2 ^ 32)
      .done (s3.modCore k fun c => (c.setS (fRD w) (BitVec.ofNat 64 res)).advance)

def execTakeTile (n : Nat) (s : State) : Out := teamster n 0x73 resvI (takeBody n) s

/-! ### Signals of commands (R112 to R117, R256, R526) -/

/-- Add to a semaphore of the sender itself; an overflow is the sender's fault. -/
def State.signalLocal (s : State) (k n sem amount : Nat) (g : FaultRec) : State :=
  match (s.core k).addSem sem amount with
  | some c => s.setCore k c
  | none => s.stopCore k n { g with reason := rSemOverflow, detail := sem }

/-- The signal of a completed command. -/
def State.signalCmd (s : State) (k n source : Nat) (cmd : Cmd) : State :=
  if cmd.sig = false then s
  else if cmd.rsig = true ∧ cmd.rcore ≠ n then
    if cmd.sigcnt = 0 then s
    else
      { (s.modCore k fun c => { c with outstanding := c.outstanding + 1 }) with
        sigs := s.sigs ++ [{ src := n, dst := cmd.rcore, sem := cmd.sem, amount := cmd.sigcnt, source := source,
                             cmdcnt := cmd.cnt, tag := cmd.tag, pc := cmd.pc, overflow := false }] }
  else s.signalLocal k n cmd.sem cmd.sigcnt (cmdFault cmd source rSemOverflow 0)

/-- The first signal on its way between two cores, and the others. -/
def takeSig (src dst : Nat) : List Sig → Option (Sig × List Sig)
  | [] => none
  | g :: gs =>
    if g.src = src ∧ g.dst = dst then some (g, gs)
    else match takeSig src dst gs with
    | some (x, r) => some (x, g :: r)
    | none => none

/-- Count a dropped signal in the target's fence report (R469, R527). -/
def State.dropSignal (s : State) (dst : Nat) : State := s.countReport 0 dst 6

/-- A remote signal reaches its target: added, dropped where the target is absent or fenced, or, for a
gated Team, held until the Team wakes. Its outcome goes back to the sender. -/
def execRemoteSignalArrive (src dst : Nat) (s : State) : Out :=
  if s.phase ≠ .up then .refused .cannotOccur
  else match takeSig src dst s.sigs with
  | none => .refused .cannotOccur
  | some (g, rest) =>
    match s.slotOf dst with
    | none => .next { s.dropSignal dst with sigs := rest, outcomes := s.outcomes ++ [g] }
    | some k =>
      if s.coreFenced dst then .next { s.dropSignal dst with sigs := rest, outcomes := s.outcomes ++ [g] }
      else if s.teamOn (dst / 8) = false then .next (s.reachTeam (dst / 8))
      else match (s.core k).addSem g.sem g.amount with
      | some c => .next { (s.reachTeam (dst / 8)).setCore k c with sigs := rest, outcomes := s.outcomes ++ [g] }
      | none => .next { s with sigs := rest, outcomes := s.outcomes ++ [{ g with overflow := true }] }

/-- The outcome of a remote signal returns: an overflow is recorded on the sender (R122, R256). -/
def execSignalOutcomeReturn (src dst : Nat) (s : State) : Out :=
  if s.phase ≠ .up then .refused .cannotOccur
  else match takeSig src dst s.outcomes with
  | none => .refused .cannotOccur
  | some (g, rest) =>
    match s.slotOf src with
    | none => .next { s with outcomes := rest }
    | some k =>
      let s1 := { s.modCore k fun c => { c with outstanding := c.outstanding - 1 } with outcomes := rest }
      if g.overflow then
        .next (s1.stopCore k src { reason := rSemOverflow, source := g.source, cmdcnt := g.cmdcnt, tag := g.tag,
                                   pc := g.pc, detail := g.sem })
      else .next s1

end Sys2Proof.Machine
end

