-- ==== Sys2Proof/Machine/Crupper.lean ====
section
/-!
DEFINITION. The Crupper chain: the slot fields of Table XR-9, stages 1 to 8 on a row (R188 to R199,
R524), the distance bias (R231 to R233), and the checks that depend on a slot (R143, R149, R189).
-/
namespace Sys2Proof.Machine

/-! ### Slot fields -/

def CrSlot.on (x : CrSlot) (stage : Nat) : Bool := bit x.w0 (55 + stage)
def CrSlot.ofmt (x : CrSlot) : Nat := bits x.w0 55 52
def CrSlot.act (x : CrSlot) : Nat := bits x.w0 50 48
def CrSlot.resq (x : CrSlot) : Nat := bits x.w0 44 40
def CrSlot.satlim (x : CrSlot) : Nat := bits x.w0 31 0
def CrSlot.scaleG (x : CrSlot) : Nat := bits x.w1 63 32
def CrSlot.azp (x : CrSlot) : Int := signedOf 16 (bits x.w1 31 16)
def CrSlot.ozp (x : CrSlot) : Int := signedOf 16 (bits x.w1 15 0)
def CrSlot.biasAddr (x : CrSlot) : Nat := bits x.w2 52 32
def CrSlot.csumAddr (x : CrSlot) : Nat := bits x.w2 20 0
def CrSlot.lutAddr (x : CrSlot) : Nat := bits x.w3 52 32
def CrSlot.scodeAddr (x : CrSlot) : Nat := bits x.w3 20 0
def CrSlot.dbAddr (x : CrSlot) : Nat := bits x.w4 52 32
def CrSlot.leak (x : CrSlot) : Nat := bits x.w4 15 0

/-- The effective output format (R150), ACC among its codes. -/
def CrSlot.effFmt (x : CrSlot) : Nat := if x.on 8 then x.ofmt else 15
/-- Zero compression takes effect with stage 8 alone. -/
def CrSlot.zcOn (x : CrSlot) : Bool := x.on 8 && bit x.w0 51

/-- The format that ACC stands for. -/
def outFmt (fmt : Nat) (intAcc : Bool) : Nat := if fmt = 15 then (if intAcc then 7 else 8) else fmt

/-- Bits of an element by format code. -/
def fmtBits (fmt : Nat) : Nat :=
  match fmt with
  | 0 => 4
  | 1 => 8
  | 3 => 8
  | 4 => 8
  | 7 => 32
  | 8 => 32
  | 9 => 64
  | _ => 16

/-- Bytes of a packed row of 64 elements (R74). -/
def rowBytes (fmt : Nat) : Nat := 8 * fmtBits fmt

/-- INT4, INT8, INT16, INT32. -/
def fmtIsInt (fmt : Nat) : Bool := decide (fmt < 3 ∨ fmt = 7)

def fmtOf (fmt : Nat) : FFmt :=
  match fmt with
  | 3 => fmtE4M3
  | 4 => fmtE5M2
  | 5 => fmtF16
  | 6 => fmtBF16
  | 9 => fmtF64
  | _ => fmtF32

/-- The integer path (R188). -/
def CrSlot.intPath (x : CrSlot) (intAcc : Bool) : Bool :=
  intAcc && !x.on 3 && !x.on 4 && !x.on 5 && !x.on 6 && (fmtIsInt x.effFmt || decide (x.effFmt = 15))

/-! ### The checks of XCFG (R149) -/

def CrSlot.resvOk (x : CrSlot) : Bool :=
  clearOf x.w0 (maskOf 47 45 + maskOf 39 32) && clearOf x.w2 (maskOf 63 53 + maskOf 31 21) &&
  clearOf x.w3 (maskOf 63 53 + maskOf 31 21) && clearOf x.w4 (maskOf 63 53 + maskOf 31 16) &&
  decide ((x.ofmt ≤ 8 ∨ x.ofmt = 15) ∧ x.act ≤ 3)

/-- The tables that enabled stages use: address and bytes. -/
def CrSlot.tables (x : CrSlot) : List (Nat × Nat) :=
  (if x.on 1 then [(x.csumAddr, 256)] else []) ++ (if x.on 2 then [(x.biasAddr, 256)] else []) ++
  (if x.on 3 then [(x.scodeAddr, 64)] else []) ++ (if x.on 4 ∧ x.act = 3 then [(x.lutAddr, 1024)] else []) ++
  (if x.on 6 then [(x.dbAddr, 320)] else [])

def checkParamBlock (top : Nat) (rest : Bool) (x : CrSlot) : Option (Nat × Nat) :=
  firstBad [
    shape (x.resvOk && rest),
    shape (!(x.on 7 && decide (x.effFmt = 15)) && !(!x.on 7 && decide (x.effFmt < 7))),
    firstBad (x.tables.map fun t => shape (decide (t.1 % 64 = 0)) t.1),
    firstBad (x.tables.map fun t => below top t.1 t.2)]

/-! ### The distance bias (R231, R232) -/

/-- The bucket of a spatial offset (Table AK-4). -/
def spatialU (d : Nat) : Nat :=
  if d ≤ 7 then d else 8 + 4 * (d.log2 - 3) + d / 2 ^ (d.log2 - 2) % 4

def spatialBucket (q k : Nat) : Nat := if k ≤ q then 32 + spatialU (q - k) else 32 - spatialU (k - q)

def temporalBucket (q k : Nat) : Nat :=
  let dt := (q + 32768 - k) % 32768
  if dt ≥ 16384 then 255 else if dt ≥ 254 then 254 else dt

def recValid (r : Nat) : Bool := decide (r / 2 ^ 31 % 2 = 1)
def recT (r : Nat) : Nat := r / 2 ^ 16 % 2 ^ 15
def recY (r : Nat) : Nat := r / 2 ^ 8 % 2 ^ 8
def recX (r : Nat) : Nat := r % 2 ^ 8

/-- An FP16 code widened to FP32. -/
def f16to32 (h : Nat) : Nat := fenc fmtF32 (fdec fmtF16 h)

/-- A bias added (R197): a mask entry of minus infinity makes the value minus infinity. -/
def addBias (v entry : Nat) : Nat := if entry = 0xFC00 then 0xFF800000 else f32Add v (f16to32 entry)

/-- Stage 6 on the element of key record `kr` and column `n`; words 0 and 1 of the descriptor are given. -/
def State.distBias (s : State) (core db : Nat) (d0 : W64) (kr n : Nat) (v : Nat) : Nat :=
  let qr := s.ldN (storeBase core + db + 64 + 4 * n) 4
  if recValid kr = false ∨ recValid qr = false then 0xFF800000
  else
    let bx := spatialBucket (recX qr) (recX kr)
    let byy := spatialBucket (recY qr) (recY kr)
    let v1 := if bit d0 63 then addBias v (s.ldN (storeBase core + bits d0 52 32 + 2 * (64 * byy + bx)) 2) else v
    if bit d0 62 then
      addBias v1 (s.ldN (storeBase core + bits d0 20 0 + 2 * temporalBucket (recT qr) (recT kr)) 2)
    else v1

/-! ### Stages on one element -/

def word (i : Int) : Nat := intCode 32 i

/-- Stage 1 (R190). -/
def stage1 (azp : Int) (entry rs acc : Nat) : Nat :=
  let cs := signedOf 24 entry
  let zw := (signedOf 32 entry - cs) / (2 : Int) ^ 24
  word ((acc : Int) - azp * cs - zw * (rs : Int))

/-- Stage 3 (R193): the scale of a column, and the product of a value with it. (DEDUCED, log 18) -/
def scaleOf (g c : Nat) : Nat := if c = 0 then 0 else fenc fmtF32 ((fdec fmtF32 g).mul (.fin false c (-7)))
def stage3 (intAcc : Bool) (y sc : Nat) : Nat :=
  fenc fmtF32 ((if intAcc then ofInt (signedOf 32 y) else fdec fmtF32 y).mul (fdec fmtF32 sc))

/-- floor(8 * v) of a finite value. -/
def floor8 (neg : Bool) (m : Nat) (e : Int) : Int :=
  let x : Int := if neg then -(m : Int) else m
  if 0 ≤ e + 3 then x * (2 : Int) ^ (e + 3).toNat else x / (2 : Int) ^ (-(e + 3)).toNat

/-- The LUT index of R195. -/
def lutIndex : FV → Nat
  | .nan => 0
  | .inf neg => if neg then 0 else 255
  | .fin neg m e => (min 255 (max 0 (floor8 neg m e + 128))).toNat

/-- The LUT segment: a product of 0 and an infinity counts as 0. -/
def lutEval (entry v : Nat) : Nat :=
  let x := fdec fmtF32 v
  let a := fdec fmtF16 (entry / 65536 % 65536)
  let b := fdec fmtF16 (entry % 65536)
  if x.isNaN then fmtF32.nanMag
  else fenc fmtF32 ((if a.isZero || x.isZero then .fin false 0 0 else a.mul x).add b)

/-- Stage 4 (R194); a NaN stays a NaN. (DEDUCED, log 18) -/
def stage4 (act leak entry v : Nat) : Nat :=
  let x := fdec fmtF32 v
  let relu : FV := if x.isNaN then .nan else if x.isNeg ∨ x.isZero then .fin false 0 0 else x
  match act with
  | 0 => fenc fmtF32 relu
  | 1 => if relu.cmp (ofInt 6) = some .gt then fenc fmtF32 (ofInt 6) else fenc fmtF32 relu
  | 2 => if x.cmp (.fin false 0 0) = some .lt then fenc fmtF32 (x.mul (fdec fmtF16 leak)) else fenc fmtF32 x
  | _ => lutEval entry v

/-- An element of a format as a value. -/
def elemValue (fmt code : Nat) : FV :=
  if fmtIsInt fmt then ofInt (signedOf (fmtBits fmt) code) else fdec (fmtOf fmt) code

/-- Stage 5 (R196): the addition of r - OZP, or of r, rounds once. (DEDUCED, log 18) -/
def stage5 (fmt : Nat) (ozp : Int) (r v : Nat) : Nat :=
  let x := fdec fmtF32 (fenc fmtF32 (elemValue fmt r))
  fenc fmtF32 ((fdec fmtF32 v).add (if fmtIsInt fmt then x.add (ofInt (-ozp)) else x))

/-- Stage 7 (R198, R199): the output code, and whether it counts as clamped. -/
def stage7 (fmt : Nat) (intPath : Bool) (ozp : Int) (v : Nat) : Nat × Bool :=
  let w := fmtBits fmt
  if intPath then
    let (q, cl) := clampInt w (signedOf 32 v + ozp)
    (intCode w q, cl)
  else if fmtIsInt fmt then
    match fdec fmtF32 v with
    | .nan => (intCode w (clampInt w ozp).1, true)
    | .inf neg => (intCode w (clampInt w (if neg then -((2 : Int) ^ 40) else (2 : Int) ^ 40)).1, false)
    | .fin neg m e =>
      let (q, cl) := clampInt w (roundInt neg m e + ozp)
      (intCode w q, cl)
  else if fmt = 8 then (v, false)
  else fnarrow (fmtOf fmt) (fdec fmtF32 v)

/-- Stage 8 with stage 7 bypassed (R524). -/
def stage8plain (fmt : Nat) (intPath : Bool) (v : Nat) : Nat :=
  if intPath then v else if fmt = 7 then intCode 32 (fToInt 32 (fdec fmtF32 v)) else v

/-- What the stages of one row need beside the slot: the core, whether the accumulator is INT32, the
row sum, the key record of the row, the first descriptor word, and the residual row's codes. -/
structure RowCtx where
  core : Nat
  intAcc : Bool
  rs : Nat
  keyRec : Nat
  d0 : W64
  resid : List Nat

/-- Stages 1 to 3 on column `n`. -/
def State.chain3 (s : State) (x : CrSlot) (r : RowCtx) (n acc : Nat) : Nat :=
  let at32 (a : Nat) : Nat := s.ldN (storeBase r.core + a + 4 * n) 4
  let y1 := if x.on 1 ∧ r.intAcc then stage1 x.azp (at32 x.csumAddr) r.rs acc else acc
  let y2 := if x.on 2 then (if r.intAcc then (y1 + at32 x.biasAddr) % 2 ^ 32 else f32Add y1 (at32 x.biasAddr)) else y1
  if x.intPath r.intAcc then y2
  else if x.on 3 then stage3 r.intAcc y2 (scaleOf x.scaleG (s.ld8 (storeBase r.core + x.scodeAddr + n)))
  else if r.intAcc then f32OfInt (signedOf 32 y2) else y2

/-- The LUT entry that a value takes. -/
def CrSlot.lutEntry (x : CrSlot) (v : Nat) : Nat := x.lutAddr + 4 * lutIndex (fdec fmtF32 v)

/-- Stages 1 to 8 on column `n`: the output code and whether stage 7 clamped it. -/
def State.chainElem (s : State) (x : CrSlot) (r : RowCtx) (n acc : Nat) : Nat × Bool :=
  let fmt := outFmt x.effFmt r.intAcc
  let ip := x.intPath r.intAcc
  let v3 := s.chain3 x r n acc
  let v4 := if x.on 4 then
      stage4 x.act x.leak (s.ldN (storeBase r.core + x.lutEntry v3) 4) v3 else v3
  let v5 := if x.on 5 then stage5 fmt x.ozp (r.resid.getD n 0) v4 else v4
  let v6 := if x.on 6 then s.distBias r.core x.dbAddr r.d0 r.keyRec n v5 else v5
  if x.on 7 then stage7 fmt ip x.ozp v6 else (stage8plain fmt ip v6, false)

/-- The bias entries that stage 6 reads for column `n`, beside its query record. -/
def State.distReads (s : State) (x : CrSlot) (r : RowCtx) (n : Nat) : List (Nat × Nat) :=
  let q := x.dbAddr + 64 + 4 * n
  let qr := s.ldN (storeBase r.core + q) 4
  (q, 4) ::
    if recValid r.keyRec && recValid qr then
      (if bit r.d0 63 then
        [(bits r.d0 52 32 + 2 * (64 * spatialBucket (recY qr) (recY r.keyRec) + spatialBucket (recX qr) (recX r.keyRec)), 2)] else []) ++
      (if bit r.d0 62 then [(bits r.d0 20 0 + 2 * temporalBucket (recT qr) (recT r.keyRec), 2)] else [])
    else []

/-- What the stages read from the core store for column `n`, in the order of the stages: offset and bytes. -/
def State.elemReads (s : State) (x : CrSlot) (r : RowCtx) (n acc : Nat) : List (Nat × Nat) :=
  (if x.on 1 ∧ r.intAcc then [(x.csumAddr + 4 * n, 4)] else []) ++ (if x.on 2 then [(x.biasAddr + 4 * n, 4)] else []) ++
  (if x.on 3 then [(x.scodeAddr + n, 1)] else []) ++
  (if x.on 4 ∧ x.act = 3 then [(x.lutEntry (s.chain3 x r n acc), 4)] else []) ++
  (if x.on 6 then s.distReads x r n else [])

/-- The first of some reads of a core's store that meets an uncorrectable error: its offset. -/
def State.readUe (s : State) (core : Nat) (l : List (Nat × Nat)) : Option Nat :=
  (l.find? fun e => s.ueHit (storeBase core + e.1) e.2).map (·.1)

/-- The first uncorrectable error that the stages meet on a row (R31). -/
def State.rowUe (s : State) (x : CrSlot) (r : RowCtx) (cols : Nat) (acc : List Nat) : Option Nat :=
  s.readUe r.core ((List.range cols).flatMap fun n => s.elemReads x r n (acc.getD n 0))

/-- Codes of `w` bits each, the first lowest, as one number. -/
def packCodes (w : Nat) : List Nat → Nat
  | [] => 0
  | c :: cs => c % 2 ^ w + 2 ^ w * packCodes w cs

/-- `m` codes of `w` bits from a number. -/
def unpackCodes (w : Nat) : Nat → Nat → List Nat
  | 0, _ => []
  | m + 1, v => v % 2 ^ w :: unpackCodes w m (v / 2 ^ w)

/-- A drained row: 64 output codes, those beyond column `cols` zero, and the elements clamped. -/
def State.chainRow (s : State) (x : CrSlot) (r : RowCtx) (cols : Nat) (acc : List Nat) : List Nat × Nat :=
  let out := (List.range 64).map fun n => if n < cols then s.chainElem x r n (acc.getD n 0) else (0, false)
  (out.map (·.1), (out.filter (·.2)).length)

/-! ### The checks at the first row (R143, R189, R233) -/

/-- The distance-bias descriptor of an enabled stage 6, for arrays `as` and `m` rows each. -/
def State.checkDist (s : State) (core top : Nat) (x : CrSlot) (as : List Nat) (m : Nat) : Option (Nat × Nat) :=
  let d0 := BitVec.ofNat 64 (s.ldN (storeBase core + x.dbAddr) 8)
  let d1 := BitVec.ofNat 64 (s.ldN (storeBase core + x.dbAddr + 8) 8)
  firstBad [
    shape (clearOf d0 (maskOf 61 53 + maskOf 31 21) && clearOf d1 (maskOf 63 53 + maskOf 31 16)),
    shape (decide (bits d1 15 0 % 64 = 0)),
    shape (decide (bits d0 52 32 % 64 = 0 ∧ bits d0 20 0 % 64 = 0)),
    if bit d0 63 then below top (bits d0 52 32) 8192 else none,
    if bit d0 62 then below top (bits d0 20 0) 512 else none,
    firstBad (as.map fun i => below top (bits d1 52 32 + i * bits d1 15 0) (4 * m))]

/-- The checks of a draining command against its slot. -/
def State.checkSlot (s : State) (k n : Nat) (cmd : Cmd) (x : CrSlot) (intAcc : Bool) : Option (Nat × Nat) :=
  let c := s.core k
  let fmt := outFmt x.effFmt intAcc
  firstBad [
    if cmd.dbuf then shape (!x.zcOn) else
      firstBad (cmd.arrays.map fun i => s.destCheck n (arrQueue cmd.w3 i) (rowBytes fmt) x.zcOn),
    shape (!(intAcc && !x.intPath intAcc && decide (x.effFmt = 15))),
    if x.on 5 then s.queueCheck n x.resq (rowBytes fmt) false else none,
    if x.on 6 then s.checkDist n c.storeTop x cmd.arrays cmd.mRows else none,
    if cmd.dbuf then
      firstBad (cmd.arrays.map fun i => below c.storeTop (arrBuf cmd.w3 i) (cmd.mRows * rowBytes fmt)) else none]

end Sys2Proof.Machine
end

