-- ==== Sys2Proof/Machine/Matrix.lean ====
section
/-!
DEFINITION. The Matrix unit: MMUL, MFREE, MDRAIN, XCFG and the Guard replay (R63 to R78, R142 to R150,
R186, R187, R461 to R466). A command advances slot by slot as far as its data and its credits allow;
the bubbles that its timing costs are the operand of its row (R67, R87).
-/
namespace Sys2Proof.Machine

/-! ### Beginning a command -/

/-- The engines of a core may begin commands: no fault has stopped it, and the debugger holds neither
the engines nor this command (R122, R491, R492). -/
def State.mayBegin (s : State) (k : Nat) (cmd : Cmd) : Bool :=
  let c := s.core k
  !c.faulted && decide (cmd ∉ c.heldCmds) && !(c.stopped && decide (s.getF (F.DBG_CORE_CTRL_ENG_HOLD k) = 1))

/-- The fault of a command at engine `source` stops its core. -/
def State.cmdStop (s : State) (k n source : Nat) (cmd : Cmd) (reason detail : Nat) (ev : Nat := 3) : State :=
  s.stopCore k n (cmdFault cmd source reason detail) ev

def State.traceBegin (s : State) (k n source : Nat) (cmd : Cmd) : State :=
  s.trace (k / 9) n source 1 cmd.tag cmd.cnt

/-! ### Operands in their formats -/

/-- The accumulator is INT32 (Table TC-2). -/
def Cmd.intAcc (c : Cmd) : Bool := decide (c.fmt < 2 ∨ c.fmt = 5)

/-- Activation element `j` of a row (R64, R182). -/
def Cmd.actElem (c : Cmd) (row : List Nat) (j : Nat) : FV :=
  match c.fmt with
  | 0 => ofInt (signedOf 8 (row.getD j 0))
  | 1 => ofInt (signedOf 4 (row.getD (j / 2) 0 / 16 ^ (j % 2)))
  | 2 => fdec (if c.ae5m2 then fmtE5M2 else fmtE4M3) (row.getD j 0)
  | 3 => fdec fmtF16 (row.getD (2 * j) 0 + 256 * row.getD (2 * j + 1) 0)
  | 4 => fdec fmtBF16 (row.getD (2 * j) 0 + 256 * row.getD (2 * j + 1) 0)
  | _ => ofInt (signedOf 16 (row.getD (2 * j) 0 + 256 * row.getD (2 * j + 1) 0))

/-- Weight element (k, n) of a tile (R206). -/
def Cmd.wElem (c : Cmd) (tile : List Nat) (k n : Nat) : FV :=
  match c.fmt with
  | 1 => ofInt (signedOf 4 (tile.getD (64 * (k / 2) + n) 0 / 16 ^ (k % 2)))
  | 2 => fdec (if c.we5m2 then fmtE5M2 else fmtE4M3) (tile.getD (64 * k + n) 0)
  | 3 => fdec fmtF16 (tile.getD (128 * k + 2 * n) 0 + 256 * tile.getD (128 * k + 2 * n + 1) 0)
  | 4 => fdec fmtBF16 (tile.getD (128 * k + 2 * n) 0 + 256 * tile.getD (128 * k + 2 * n + 1) 0)
  | _ => ofInt (signedOf 8 (tile.getD (64 * k + n) 0))

/-- An integer value as an integer. -/
def FV.int : FV → Int
  | .fin neg m _ => if neg then -(m : Int) else m
  | _ => 0

def sumInt : List Int → Int
  | [] => 0
  | x :: xs => x + sumInt xs

/-- The FP32 tree over 64 places, those from `len` on zero (R187). -/
def tree64 (l : List Nat) : Nat := treeSum f32Add 6 (l ++ List.replicate (64 - l.length) 0)

/-- The contribution of a pass to column `n` of a row (R186, R187). -/
def Cmd.contrib (c : Cmd) (tile row : List Nat) (n : Nat) : Nat :=
  if c.intAcc then
    word (sumInt ((List.range c.kElems).map fun k => (c.actElem row k).int * (c.wElem tile k n).int))
  else tree64 ((List.range c.kElems).map fun k => fenc fmtF32 ((c.actElem row k).mul (c.wElem tile k n)))

/-- The row sum of R76, for integer formats. -/
def Cmd.rowSum (c : Cmd) (row : List Nat) : Nat :=
  word (sumInt ((List.range c.kElems).map fun k => (c.actElem row k).int))

/-! ### Guard (R462 to R464) -/

def rho (i : Int) : Int := i % 31

/-- The residue check of a row: predicted and observed agree (R463). -/
def Cmd.residueOk (c : Cmd) (tile row y : List Nat) : Bool :=
  let colSum (k : Nat) : Int := sumInt ((List.range c.nCols).map fun n => (c.wElem tile k n).int)
  let p := rho (sumInt ((List.range c.kElems).map fun k => rho (c.actElem row k).int * rho (colSum k)))
  decide (p = rho (sumInt (y.map (signedOf 32))))

/-- How the float check of a row ends: passed, mismatched, or not compared (R464). -/
inductive Chk where
  | pass
  | mismatch
  | skip
deriving DecidableEq, Repr

def f32Finite (v : Nat) : Bool :=
  match fdec fmtF32 v with
  | .fin _ _ _ => true
  | _ => false

def Cmd.floatCheck (c : Cmd) (tolf : Nat) (tile row y : List Nat) : Chk :=
  let w32 (k n : Nat) : Nat := fenc fmtF32 (c.wElem tile k n)
  let ck (k : Nat) : Nat := tree64 ((List.range c.nCols).map (w32 k))
  let ak (k : Nat) : Nat := tree64 ((List.range c.nCols).map fun n => fenc fmtF32 (c.wElem tile k n).abs)
  let cm := tree64 ((List.range c.kElems).map fun k => fenc fmtF32 ((c.actElem row k).mul (fdec fmtF32 (ck k))))
  let am := tree64 ((List.range c.kElems).map fun k => fenc fmtF32 ((c.actElem row k).abs.mul (fdec fmtF32 (ak k))))
  let sm := tree64 y
  if f32Finite sm && f32Finite cm && f32Finite am then
    let d := ((fdec fmtF32 sm).add (fdec fmtF32 cm).neg).abs
    let lim := (ofInt tolf).mul (((FV.fin false 26 (-24)).mul (fdec fmtF32 am)).add (.fin false 1 (-120)))
    if d.cmp lim = some .gt then .mismatch else .pass
  else .skip

def Cmd.guardCheck (c : Cmd) (tolf : Nat) (tile row y : List Nat) : Chk :=
  if c.intAcc then (if c.residueOk tile row y then .pass else .mismatch) else c.floatCheck tolf tile row y

/-- Group `g` of the array in place `j` among `e` enabled ones is checked, where the core's group
counter read `base` at the command's begin (R462). -/
def groupChecked (mode base e g j : Nat) : Bool :=
  if mode = 0 then false else if mode = 2 then true else decide ((base + g * e + j) % 16 = 0)

/-! ### Accumulator memory (R71, R72) -/

def acc0 : Nat → W32 := fun _ => 0#32

def accKey (array tile row col : Nat) : Nat := ((array * 8 + tile) * 64 + row) * 64 + col
def rsKey (array tile row : Nat) : Nat := (array * 8 + tile) * 64 + row

def Core.accRow (c : Core) (array tile row : Nat) : List Nat :=
  (List.range 64).map fun n => (tget acc0 c.acc (accKey array tile row n)).toNat

def setRow (t : Tbl W32) (base : Nat) : List Nat → Tbl W32
  | [] => t
  | v :: vs => setRow (tset acc0 t base (BitVec.ofNat 32 v)) (base + 1) vs

def handle0 : Nat → List Nat := fun _ => []
def Core.tiles (c : Core) (h : Nat) : List Nat := tget handle0 c.handles h
def Core.setTiles (c : Core) (h : Nat) (l : List Nat) : Core := { c with handles := tset handle0 c.handles h l }

/-- Tiles that some handle holds. -/
def Core.usedTiles (c : Core) : List Nat := c.handles.flatMap (·.2)
def Core.freeTiles (c : Core) : List Nat := (List.range 8).filter fun t => !c.usedTiles.contains t

/-- Tiles of a rotation of the free ones: which free tiles an allocation takes is not stated. -/
def pickTiles (free : List Nat) (n choice : Nat) : List Nat :=
  let r := if free.length = 0 then 0 else choice % free.length
  ((free.drop r) ++ (free.take r)).take n

/-- FIRST decides the accumulator format of its handle, which MDRAIN uses. -/
def Core.setHandleFmt (c : Core) (cmd : Cmd) : Core :=
  if cmd.pass ≠ 0 then c
  else { c with intHandles := if cmd.intAcc then cmd.handle :: c.intHandles.filter (· != cmd.handle)
                              else c.intHandles.filter (· != cmd.handle) }

/-- FIRST at the MQ head: keep the handle's tiles, or allocate; `none` where tiles are missing: the fault leaves the handle
as it was (R121). (DEDUCED, log 22) -/
def Core.allocFirst (c : Core) (h n choice : Nat) : Option Core :=
  if (c.tiles h).length = n then some c
  else
    let c1 := c.setTiles h []
    if c1.freeTiles.length < n then none else some (c1.setTiles h (pickTiles c1.freeTiles n choice))

/-! ### Checks at the MQ head (R72, R102, R103, R143) -/

/-- Enabled at all: the element size of a destination is checked at the first row. -/
def State.queueOn (s : State) (n q : Nat) : Option (Nat × Nat) :=
  match s.slotOf n with
  | none => some (rUnitAbsent, n)
  | some k => if ((s.core k).queue q).depth = 0 then some (rIllegalShape, q) else none

def State.checkMmulHead (s : State) (k n : Nat) (cmd : Cmd) : Option (Nat × Nat) :=
  firstBad [
    if (cmd.pass = 1 ∨ cmd.pass = 2) ∧
        (64 * ((s.core k).tiles cmd.handle).length < cmd.mRows ∨ (s.core k).tiles cmd.handle = []) then
      some (rIllegalShape, cmd.handle) else none,
    if cmd.abuf then none else
      firstBad (cmd.arrays.map fun i => s.queueCheck n (arrQueue cmd.w2 i) cmd.actBytes false),
    if cmd.dbuf ∨ cmd.pass < 2 then none else firstBad (cmd.arrays.map fun i => s.queueOn n (arrQueue cmd.w3 i))]

/-! ### Admitting a row -/

/-- Why a row is held back (R67). The weight tile never is the cause here: its load ends before a row is tried. -/
inductive Bubble where
  | starve
  | drain
  | align
deriving DecidableEq, Repr

inductive RowOut where
  | bubble (cause : Bubble)
  | ok (s : State) (sat : Nat)
  | mismatch
  | bad (reason detail : Nat) (s : State)

/-- The slot's contents that a core holds. -/
def cr0 : Nat → CrSlot := fun _ => {}
def Core.cr (c : Core) (i : Nat) : CrSlot := tget cr0 c.crs i

/-- An XCFG to the slot, enqueued before the command, has not completed (R75). -/
def Core.xcfgHolds (c : Core) (slot cnt : Nat) : Bool :=
  (c.xq.any fun x => decide (bits x.w0 17 16 = slot ∧ x.cnt < cnt)) ||
  (match c.actX with
   | some a => decide (bits a.cmd.w0 17 16 = slot ∧ a.cmd.cnt < cnt)
   | none => false)

/-- The credits of a drained row (R73): its place at the destination and, with stage 5, a residual row. A residual queue
that is not enabled holds no row back: the check at the first row refuses it (R189). (DEDUCED, log 21) -/
def State.creditOk (s : State) (n : Nat) (cmd : Cmd) (x : CrSlot) (i : Nat) : Bool :=
  (cmd.dbuf || s.roomAt n (arrQueue cmd.w3 i)) &&
    (!x.on 5 || decide (0 < s.countAt n x.resq) || (s.queueOn n x.resq).isSome)

/-- Write a drained row at its destination: an element, or the bytes of its computed columns (R65). -/
def State.putRow (s : State) (n : Nat) (cmd : Cmd) (zc : Bool) (fmt i r cols : Nat) (codes : List Nat) : State :=
  let w := fmtBits fmt
  let bytes := leBytes (rowBytes fmt) (packCodes w codes)
  if cmd.dbuf then s.wrStore n (arrBuf cmd.w3 i + r * rowBytes fmt) (bytes.take ((cols * w + 7) / 8))
  else s.pushAt n (arrQueue cmd.w3 i) (if zc then compress bytes else bytes)

/-- The residual row of stage 5, popped as it reaches the stage. -/
def State.residRow (s : State) (n : Nat) (x : CrSlot) : Acc :=
  if x.on 5 = false then .ok [] s
  else match s.popAcc n x.resq with
  | none => .ok [] s
  | some a => a

/-- Drain one accumulator row of array `i`, its row `r`, through the chain. An uncorrectable error in the descriptor, a
record, a table entry or the residual row faults the command (R31), as does a queue beyond STORE_TOP (R100). -/
def State.drainRow (s : State) (k n : Nat) (cmd : Cmd) (x : CrSlot) (intAcc : Bool) (i r cols rs : Nat)
    (acc : List Nat) : RowOut :=
  let fmt := outFmt x.effFmt intAcc
  match s.residRow n x with
  | .bad reason d s' => .bad reason d s'
  | .ok res s1 =>
    let d0 := BitVec.ofNat 64 (s.ldN (storeBase n + x.dbAddr) 8)
    let d1 := BitVec.ofNat 64 (s.ldN (storeBase n + x.dbAddr + 8) 8)
    let ka := bits d1 52 32 + i * bits d1 15 0 + 4 * r
    let ctx : RowCtx := { core := n, intAcc := intAcc, rs := rs, keyRec := s.ldN (storeBase n + ka) 4, d0 := d0,
                          resid := unpackCodes (fmtBits fmt) 64 (leNat res) }
    match (s.readUe n (if x.on 6 then [(x.dbAddr, 16), (ka, 4)] else [])).or (s.rowUe x ctx cols acc) with
    | some off => .bad rUncorrectable off (s1.logStoreUe n off)
    | none =>
      if cmd.dbuf = false ∧ s.ringBad n (arrQueue cmd.w3 i) then .bad rLengthBounds (arrQueue cmd.w3 i) s1
      else
        let (codes, sat) := s1.chainRow x ctx cols acc
        .ok ((s1.putRow n cmd x.zcOn fmt i r cols codes).addF (F.CR_SAT_COUNT_ELEMENTS k) sat) sat

/-- The source row of array `i`: a buffer row, or the head element of its queue. -/
def State.srcRow (s : State) (n : Nat) (cmd : Cmd) (i r : Nat) : Option (Acc) :=
  if cmd.abuf then some (s.rdStore n (arrBuf cmd.w2 i + r * cmd.actBytes) cmd.actBytes)
  else s.popAcc n (arrQueue cmd.w2 i)

/-- Flip bit 0 of a contribution. -/
def flip0 (v : Nat) : Nat := if v % 2 = 0 then v + 1 else v - 1

/-- The accumulator row after a pass: FIRST and SINGLE set it, MIDDLE and LAST add; 0 beyond N (R65). -/
def Cmd.combine (c : Cmd) (old y : List Nat) : List Nat :=
  (List.range 64).map fun n =>
    let v := y.getD n 0
    if c.pass = 0 ∨ c.pass = 3 then v
    else if c.intAcc then (old.getD n 0 + v) % 2 ^ 32 else f32Add (old.getD n 0) v

/-- The checks that depend on the slot, in the cycle in which the first row is admitted (R143, R189, R233). -/
def State.firstCheck (s : State) (k n : Nat) (cmd : Cmd) (intAcc first : Bool) : Option (Nat × Nat) :=
  if first then s.checkSlot k n cmd ((s.core k).cr cmd.xslot) intAcc else none

/-- Admit row `r` of array `i`, in place `j` among `e` enabled ones; `base` is the group counter at the
command's begin, and `first` says that no row of the command has been admitted. -/
def State.admitRow (s : State) (k n : Nat) (cmd : Cmd) (base e : Nat) (first : Bool) (i j r : Nat) : RowOut :=
  let c := s.core k
  let x := c.cr cmd.xslot
  let drains := decide (2 ≤ cmd.pass)
  match s.srcRow n cmd i r with
  | none => .bubble .starve
  | some (.bad reason d s') => .bad reason d s'
  | some (.ok row s1) =>
    if drains && !s.creditOk n cmd x i then .bubble .drain
    else match s.firstCheck k n cmd cmd.intAcc (first && drains) with
    | some (reason, d) => .bad reason d s
    | none =>
      let y0 := (List.range cmd.nCols).map (cmd.contrib c.weights row)
      let mode := match c.job with
        | some jb => (s.job jb).guardMode
        | none => 0
      let checked := groupChecked mode base e (r / 64) j
      let inj := checked && c.guard.inject && decide (i = 0)
      let y := if inj then (match y0 with
        | v :: vs => flip0 v :: vs
        | [] => []) else y0
      let chk := if checked then cmd.guardCheck (s.getF (F.RAS_GUARD_TOLF (s.partOf n))) c.weights row y else .pass
      if chk = .mismatch then .mismatch
      else
        let s2 := if chk = .skip then s1.addF F.RAS_CHK_SKIP_COUNT 1 else s1
        let s3 := if inj then s2.modCore k fun c => { c with guard := { c.guard with inject := false } } else s2
        let tile := (c.tiles cmd.handle).getD (r / 64) 0
        let old := if cmd.pass = 3 then [] else c.accRow i tile (r % 64)
        let sum := cmd.combine old y
        let rs := if cmd.intAcc then
            (if cmd.pass = 0 ∨ cmd.pass = 3 then cmd.rowSum row
             else ((tget acc0 c.rowSum (rsKey i tile (r % 64))).toNat + cmd.rowSum row) % 2 ^ 32) else 0
        let s4 := if cmd.pass = 3 then s3 else s3.modCore k fun c =>
          { c with acc := setRow c.acc (accKey i tile (r % 64) 0) sum,
                   rowSum := if cmd.intAcc then tset acc0 c.rowSum (rsKey i tile (r % 64)) (BitVec.ofNat 32 rs) else c.rowSum }
        let s5 := s4.addF (F.MX_VALID_SLOTS_SLOTS k) 1
        if drains then s5.drainRow k n cmd x cmd.intAcc i r cmd.nCols rs sum else .ok s5 0

/-! ### Slots -/

/-- The state of a sweep over slots: the machine, the rows done per array, the elements clamped, the bubbles of the slot
and of the slots before it, and how it was stopped. -/
structure Sweep where
  s : State
  prog : List Nat
  sat : Nat := 0
  moved : Bool := false
  slot : List Bubble := []
  past : List Bubble := []
  stopped : Option (Option (Nat × Nat)) := none

def setAt (l : List Nat) (i v : Nat) : List Nat := l.set i v

/-- No array has admitted a row. -/
def Sweep.first (w : Sweep) : Bool := !w.prog.any (0 < ·)

/-- One slot: each enabled array in turn admits a row if it can, or injects a bubble; one that has admitted its rows
injects a bubble of cause ALIGN (R67, R68). -/
def slotStep (tryRow : State → Bool → Nat → Nat → Nat → RowOut) (m : Nat) : List Nat → Nat → Sweep → Sweep
  | [], _, w => w
  | i :: is, j, w =>
    if w.stopped.isSome then w
    else if m ≤ w.prog.getD i 0 then slotStep tryRow m is (j + 1) { w with slot := .align :: w.slot }
    else match tryRow w.s w.first i j (w.prog.getD i 0) with
    | .bubble b => slotStep tryRow m is (j + 1) { w with slot := b :: w.slot }
    | .ok s sat => slotStep tryRow m is (j + 1)
        { w with s := s, prog := setAt w.prog i (w.prog.getD i 0 + 1), sat := w.sat + sat, moved := true }
    | .mismatch => { w with stopped := some none }
    | .bad r d s => { w with s := s, stopped := some (some (r, d)) }

/-- Slots until nothing moves. The bubbles of a slot in which an array admitted a row stand; how long the arrays wait
while none can is the operand's. -/
def slots (tryRow : State → Bool → Nat → Nat → Nat → RowOut) (m : Nat) (arrays : List Nat) : Nat → Sweep → Sweep
  | 0, w => w
  | f + 1, w =>
    let w' := slotStep tryRow m arrays 0 { w with moved := false, slot := [] }
    if w'.moved then
      let w1 := { w' with past := w'.slot ++ w'.past }
      if w'.stopped = none then slots tryRow m arrays f w1 else w1
    else w'

/-- Every enabled array has admitted its rows (R68). -/
def allRows (m : Nat) (arrays prog : List Nat) : Bool := arrays.all fun i => decide (m ≤ prog.getD i 0)

/-- The timing of a run of the arrays, counted (R87). -/
def State.countTiming (s : State) (k : Nat) (t : MxTiming) : State :=
  ((((s.addF (F.MX_ACTIVE_CYC_CYCLES k) t.active).addF (F.MX_BUBBLE_WEIGHT_SLOTS k) t.weight).addF
    (F.MX_BUBBLE_STARVE_SLOTS k) t.starve).addF (F.MX_BUBBLE_DRAIN_SLOTS k) t.drain).addF
    (F.MX_BUBBLE_ALIGN_SLOTS k) t.align

/-- The bubbles of a sweep, counted. -/
def State.countBubbles (s : State) (k : Nat) (l : List Bubble) : State :=
  ((s.addF (F.MX_BUBBLE_STARVE_SLOTS k) (l.count .starve)).addF (F.MX_BUBBLE_DRAIN_SLOTS k) (l.count .drain)).addF
    (F.MX_BUBBLE_ALIGN_SLOTS k) (l.count .align)

/-- Stop the matrix command in progress. -/
def State.matrixStop (s : State) (k n : Nat) (cmd : Cmd) (reason detail : Nat) : State :=
  (s.modCore k fun c => { c with actM := none }).cmdStop k n 1 cmd reason detail

/-- An uncorrectable error that a scrub found where a command reads (R459): in an accumulator element of its
tiles, at place (array, tile, row, column); in the weight buffers it keeps, below 65,536; or in its Crupper slot,
at 65,536 and above. -/
def Core.badPlace (c : Core) (cmd : Cmd) (drain : Bool) : Option (Nat × Nat) :=
  c.bad.find? fun e =>
    (e.1 == 1 && (drain || cmd.pass == 1 || cmd.pass == 2) && (c.tiles cmd.handle).contains (e.2 / 4096 % 8) &&
      cmd.arrays.contains (e.2 / 32768)) ||
    (e.1 == 9 && (if e.2 < 65536 then !drain && cmd.keep else (drain || decide (2 ≤ cmd.pass)) && e.2 == 65536 + cmd.xslot))

/-- The command met that error. -/
def State.matrixUe (s : State) (k n : Nat) (cmd : Cmd) (e : Nat × Nat) : State :=
  { s.rasUe e.1 n e.2 with errPlace := (0xFFFF, n * 2 ^ 32 + 4 * e.2 % 2 ^ 21) }.matrixStop k n cmd rUncorrectable 0

/-- A command that writes its tiles first, or loads its weights, leaves no error in them. -/
def Core.freshBad (c : Core) (cmd : Cmd) : Core :=
  { c with bad := c.bad.filter fun e =>
      !((e.1 == 1 && cmd.pass == 0 && (c.tiles cmd.handle).contains (e.2 / 4096 % 8)) || (e.1 == 9 && e.2 < 65536 && !cmd.keep)) }

/-- A matrix command whose rows have all been admitted lands. -/
def Core.landMatrix (c : Core) (a : Active) : Core :=
  { c with actM := none, landM := c.landM ++ [{ a with full := true }] }

/-! ### MMUL -/

def Core.popMq (c : Core) : Core := { c with mq := c.mq.tail }

/-- Read the command's weight tile. -/
def State.readTile (s : State) (n : Nat) (cmd : Cmd) : Acc :=
  match refOf cmd.w1 with
  | none => .bad rIllegalShape 0 s
  | some r => s.rdRef n r 0 cmd.tileBytes true

/-- The command's weight tile becomes the active one: from the shadow buffer where it has been loaded there, else read
now; a command with KEEP uses the active tile unchanged (R66). -/
def State.loadWeights (s : State) (k n : Nat) (cmd : Cmd) : Acc :=
  if cmd.keep then .ok [] s
  else match (s.core k).shadow with
  | some b => .ok [] (s.modCore k fun c => { c with weights := b, shadow := none })
  | none =>
    match s.readTile n cmd with
    | .ok b s' => .ok [] (s'.modCore k fun c => { c with weights := b })
    | .bad x d s' => .bad x d s'

/-- The Teams whose Pool slice or store `len` bytes at `d` beyond a reference reach; none for GDDR6. -/
def State.refTeams (s : State) (n : Nat) (r : Ref) (d len : Nat) : List Nat :=
  match r with
  | .loc _ => [n / 8]
  | .remote c _ => [c / 8]
  | .queue c _ => [queueCore n c / 8]
  | .object id off =>
    let x := s.obj (s.partOf n) id
    (segRange (off + d) len).filterMap fun i => (x.segs[i]?).bind fun g => g.pool.bind poolTeam

/-- The first Team that `len` bytes at `d` beyond a reference reach and that is not ON: the access is held (R84). -/
def State.refOff (s : State) (n : Nat) (r : Ref) (d len : Nat) : Option Nat := (s.refTeams n r d len).find? fun t => !s.teamOn t

/-- The same of a reference word, from its offset on. -/
def State.refHeld (s : State) (n : Nat) (w : W64) (len : Nat) : Option Nat := (refOf w).bind fun r => s.refOff n r 0 len

/-- The command that the weight loader takes next: the first in MQ that loads a tile. -/
def Core.nextLoad (c : Core) : Option Cmd := c.mq.find? fun x => decide (x.opc = 0x10) && !x.keep && !x.mmulEmpty

/-- Once the command in progress has admitted a row, its tile is active and the shadow buffer is free: the next tile is
loaded (R66). A Team that is not ON is woken; what the load cannot read is left to its command's begin.
(DEDUCED, log 102) -/
def State.prefetch (s : State) (k n : Nat) : State :=
  match (s.core k).shadow, (s.core k).nextLoad with
  | none, some cmd =>
    if s.mayBegin k cmd = false then s
    else match s.refHeld n cmd.w1 cmd.tileBytes with
    | some t => s.reachTeam t
    | none => match s.readTile n cmd with
      | .bad _ _ _ => s
      | .ok b s' => s'.modCore k fun c => { c with shadow := some b }
  | _, _ => s

/-- Advance the MMUL in progress. -/
def State.mmulRun (s : State) (k n : Nat) (a : Active) (t : MxTiming) : State :=
  let cmd := a.cmd
  let c := s.core k
  let s0 := s.countTiming k t
  if decide (2 ≤ cmd.pass) && c.xcfgHolds cmd.xslot cmd.cnt then s0
  else match c.badPlace cmd false with
  | some e => s0.matrixUe k n cmd e
  | none =>
    let arrays := cmd.arrays
    let w := slots (fun s first i j r => s.admitRow k n cmd a.aux arrays.length first i j r) cmd.mRows arrays
      (4 * cmd.mRows) { s := s0, prog := a.prog }
    let a' := { a with prog := w.prog, sat := a.sat + w.sat, fixed := a.fixed || !w.first }
    let s1 := w.s.countBubbles k w.past
    let s2 := if w.first then s1 else s1.prefetch k n
    match w.stopped with
    | none =>
      if allRows cmd.mRows arrays w.prog then s2.modCore k (·.landMatrix a')
      else s2.modCore k fun c => { c with actM := some a' }
    | some none =>
      s2.modCore k fun c => { c with actM := some a', guard := { c.guard with inject := false, replay := true } }
    | some (some (r, d)) => s1.matrixStop k n cmd r d

/-- The groups of R462 that a command takes. -/
def Cmd.groups (c : Cmd) : Nat := (c.mRows + 63) / 64 * c.arrays.length

/-- An MMUL at the MQ head begins: its checks, its tiles, its weights, and then its rows. -/
def State.mmulBegin (s : State) (k n : Nat) (cmd : Cmd) (t : MxTiming) : State :=
  let s1 := s.traceBegin k n 1 cmd
  match s.checkMmulHead k n cmd with
  | some (r, d) => s.cmdStop k n 1 cmd r d 4
  | none =>
    if cmd.mmulEmpty then
      s1.modCore k fun c => { c.popMq with landM := c.landM ++ [{ cmd := cmd, full := true }] }
    else
      match (if cmd.pass = 0 then (s.core k).allocFirst cmd.handle cmd.ntiles s.free else some (s.core k)) with
      | none => s.cmdStop k n 1 cmd rAccOverflow cmd.handle
      | some c1 =>
        let base := c1.guard.group
        let s2 := (s1.setCore k { (c1.setHandleFmt cmd).popMq with guard := { c1.guard with group := (base + cmd.groups) % 16 } }).used1
        match s2.loadWeights k n cmd with
        | .bad r d s' => s'.matrixStop k n cmd r d
        | .ok _ s3 =>
          let a : Active := { cmd := cmd, aux := base, prog := [0, 0, 0, 0] }
          (s3.modCore k fun c => { c.freshBad cmd with actM := some a }).mmulRun k n a t

/-- The Team to wake before the MMUL at the head can begin: it loads a tile that is not in the shadow buffer, and no check
refuses it (R84). -/
def State.weightHeld (s : State) (k n : Nat) (cmd : Cmd) : Option Nat :=
  if cmd.keep || cmd.mmulEmpty || (s.core k).shadow.isSome || (s.checkMmulHead k n cmd).isSome ||
      (decide (cmd.pass = 0) && ((s.core k).allocFirst cmd.handle cmd.ntiles s.free).isNone) then none
  else s.refHeld n cmd.w1 cmd.tileBytes

/-- Run `body` on the slot of logical core `n`. (DEDUCED, log 8) (DESIGN CHOICE, log 10) -/
def onCore (n : Nat) (s : State) (body : Nat → Core → Out) : Out :=
  if s.phase ≠ .up then .refused .cannotOccur
  else match s.slotOf n with
  | none => .refused .noSuchUnit
  | some k => body k (s.core k)

/-- MMUL: its checks, its weight tile, and its rows as far as data and credits allow (R63 to R73, R143). (DEDUCED, log 21) -/
def execMmul (n : Nat) (t : MxTiming) (s : State) : Out :=
  onCore n s fun k c =>
    match c.actM with
    | some a =>
      if a.cmd.opc ≠ 0x10 then .refused .otherInstruction
      else if c.guard.replay then .next s
      else .next (s.mmulRun k n a t)
    | none =>
      match c.mq with
      | [] => .refused .cannotOccur
      | cmd :: _ =>
        if cmd.opc ≠ 0x10 then .refused .otherInstruction
        else if s.mayBegin k cmd = false then .next s
        else match s.weightHeld k n cmd with
        | some tm => .next (s.reachTeam tm)
        | none => .next (s.mmulBegin k n cmd t)

/-- A replay ends (R465, R466): it passed, or the mismatch persists. `cycles` is what it took. (DEDUCED, log 21) -/
def execGuardReplayEnd (n : Nat) (persistent : Bool) (cycles : Nat) (s : State) : Out :=
  onCore n s fun k c =>
    match c.actM with
    | none => .refused .cannotOccur
    | some a =>
      if c.guard.replay = false then .refused .cannotOccur
      else
        let s1 := (s.modCore k fun c => { c with guard := { c.guard with replay := false } }).addF
          F.RAS_CHK_REPLAY_CYC_COUNT cycles
        if persistent then
          .next (((s1.addF F.RAS_CHK_PERSIST_COUNT 1).modCore k fun c => { c with retirePending := true }).matrixStop
            k n a.cmd rCheckMismatch 0)
        else
          let c1 := s1.core k
          let win := s.tick / 1024
          let cnt := (if c1.guard.window = win then c1.guard.transients else 0) + 1
          let s2 := (s1.addF F.RAS_CHK_TRANSIENT_COUNT 1).modCore k fun c =>
            { c with guard := { c.guard with window := win, transients := cnt },
                     retirePending := c.retirePending || decide (s.getF F.RAS_CTRL_TRANS_LIM < cnt) }
          .next s2

/-! ### MFREE and MDRAIN (R147, R148) -/

/-- A row of an earlier command that names the handle is still on its way. -/
def Core.handleBusy (c : Core) (h : Nat) : Bool :=
  c.landM.any fun a => decide (a.cmd.handle = h ∧ ((a.cmd.opc = 0x10 ∧ a.cmd.pass ≠ 3) ∨ a.cmd.opc = 0x12))

def execMfree (n : Nat) (s : State) : Out :=
  onCore n s fun k c =>
    match c.actM, c.mq with
    | none, cmd :: _ =>
      if cmd.opc ≠ 0x11 then .refused .otherInstruction
      else if s.mayBegin k cmd = false ∨ c.handleBusy cmd.handle then .next s
      else .next ((s.traceBegin k n 1 cmd).modCore k fun c =>
        { (c.popMq.setTiles cmd.handle []) with landM := c.landM ++ [{ cmd := cmd, full := true }] })
    | _, _ => .refused .cannotOccur

/-- Drain row `r` of array `i` of a handle; `first` says that no row of the command has been read. -/
def State.drainAdmit (s : State) (k n : Nat) (cmd : Cmd) (intAcc first : Bool) (i r : Nat) : RowOut :=
  let c := s.core k
  let x := c.cr cmd.xslot
  if s.creditOk n cmd x i = false then .bubble .drain
  else match s.firstCheck k n cmd intAcc first with
  | some (reason, d) => .bad reason d s
  | none =>
    let tile := (c.tiles cmd.handle).getD (r / 64) 0
    let rs := (tget acc0 c.rowSum (rsKey i tile (r % 64))).toNat
    s.drainRow k n cmd x intAcc i r 64 rs (c.accRow i tile (r % 64))

/-- Advance the MDRAIN in progress; `aux` 1 says that the handle holds INT32 sums. -/
def State.mdrainRun (s : State) (k n : Nat) (a : Active) (t : MxTiming) : State :=
  let cmd := a.cmd
  let c := s.core k
  let s0 := s.countTiming k t
  let intAcc := decide (a.aux = 1)
  if c.xcfgHolds cmd.xslot cmd.cnt then s0
  else match c.badPlace cmd true with
  | some e => s0.matrixUe k n cmd e
  | none =>
    let w := slots (fun s first i _ r => s.drainAdmit k n cmd intAcc first i r) cmd.mRows cmd.arrays (4 * cmd.mRows)
      { s := s0, prog := a.prog }
    let a' := { a with prog := w.prog, sat := a.sat + w.sat, fixed := a.fixed || !w.first }
    let s1 := w.s.countBubbles k w.past
    match w.stopped with
    | some (some (r, d)) => s1.matrixStop k n cmd r d
    | _ =>
      if allRows cmd.mRows cmd.arrays w.prog then s1.modCore k (·.landMatrix a')
      else s1.modCore k fun c => { c with actM := some a' }

def State.mdrainBegin (s : State) (k n : Nat) (cmd : Cmd) (t : MxTiming) : State :=
  let s1 := s.traceBegin k n 1 cmd
  let c := s.core k
  match firstBad [
      if 64 * (c.tiles cmd.handle).length < cmd.mRows then some (rIllegalShape, cmd.handle) else none,
      if cmd.dbuf then none else firstBad (cmd.arrays.map fun i => s.queueOn n (arrQueue cmd.w3 i))] with
  | some (r, d) => s.cmdStop k n 1 cmd r d 4
  | none =>
    if cmd.amask = 0 ∨ cmd.mRows = 0 then
      s1.modCore k fun c => { c.popMq with landM := c.landM ++ [{ cmd := cmd, full := true }] }
    else
      let a : Active := { cmd := cmd, aux := if c.intHandles.contains cmd.handle then 1 else 0, prog := [0, 0, 0, 0] }
      (s1.modCore k fun c => { c.popMq with actM := some a }).mdrainRun k n a t

def execMdrain (n : Nat) (t : MxTiming) (s : State) : Out :=
  onCore n s fun k c =>
    match c.actM with
    | some a => if a.cmd.opc ≠ 0x12 then .refused .otherInstruction else .next (s.mdrainRun k n a t)
    | none =>
      match c.mq with
      | [] => .refused .cannotOccur
      | cmd :: _ =>
        if cmd.opc ≠ 0x12 then .refused .otherInstruction
        else if s.mayBegin k cmd = false ∨ c.handleBusy cmd.handle then .next s
        else .next (s.mdrainBegin k n cmd t)

/-! ### XCFG (R75, R149) -/

/-- A command that names the slot, enqueued before the XCFG, is not fully drained (R75). -/
def Core.slotBusy (c : Core) (slot cnt : Nat) : Bool :=
  let names (x : Cmd) : Bool :=
    decide (x.cnt < cnt ∧ x.xslot = slot) && (decide (x.opc = 0x12) || decide (x.opc = 0x10 ∧ 2 ≤ x.pass))
  c.mq.any names || (match c.actM with
    | some a => names a.cmd
    | none => false) || c.landM.any fun a => names a.cmd

/-- The parameter block at an address: its five words, and whether words 5 to 15 are 0. -/
def State.paramBlock (s : State) (n off : Nat) : CrSlot × Bool :=
  let w (i : Nat) : W64 := BitVec.ofNat 64 (s.ldN (storeBase n + off + 8 * i) 8)
  ({ w0 := w 0, w1 := w 1, w2 := w 2, w3 := w 3, w4 := w 4 },
   decide (s.ldN (storeBase n + off + 40) 88 = 0))

/-- XCFG begins: it waits for the users of its slot, reads its block and checks it. It completes, and
the slot takes the contents, at COMMAND_COMPLETE. (DEDUCED, log 24) -/
def execXcfg (n : Nat) (s : State) : Out :=
  onCore n s fun k c =>
    match c.actX, c.xq with
    | none, cmd :: _ =>
      let slot := bits cmd.w0 17 16
      if s.mayBegin k cmd = false ∨ c.slotBusy slot cmd.cnt then .next s
      else
        let off := bits cmd.w1 20 0
        let (x, rest) := s.paramBlock n off
        let s1 := s.traceBegin k n 2 cmd
        if s.ueHit (storeBase n + off) 128 then .next ((s1.logStoreUe n off).cmdStop k n 2 cmd rUncorrectable off)
        else match checkParamBlock c.storeTop rest x with
        | some (r, d) => .next (s1.cmdStop k n 2 cmd r d)
        | none =>
          .next (s1.modCore k fun c => { c with
            xq := c.xq.tail,
            actX := some { cmd := cmd, full := true,
                           buf := [x.w0.toNat, x.w1.toNat, x.w2.toNat, x.w3.toNat, x.w4.toNat] } })
    | _, _ => .refused .cannotOccur

end Sys2Proof.Machine
end

