-- ==== Sys2Proof/Machine/Mover.lean ====
section
/-!
DEFINITION. The Data Mover: DMOVE (R151 to R153, R262). It moves source rows one at a time, in order,
as far as its queues and Teams allow (R105, R122).
-/
namespace Sys2Proof.Machine

/-! ### Add-on-write (R262) -/

/-- One 4-byte element added: 1 INT32, 2 FP32. -/
def addElem (kind a b : Nat) : Nat := if kind = 1 then (a + b) % 2 ^ 32 else f32Add a b

/-- Rows added element by element; bytes that do not fill an element count as its low bytes. -/
def addBytes (kind : Nat) : Nat → List Nat → List Nat → List Nat
  | 0, _, _ => []
  | f + 1, old, new =>
    if new = [] then []
    else leBytes (min 4 new.length) (addElem kind (leNat (old.take 4)) (leNat (new.take 4))) ++
      addBytes kind f (old.drop 4) (new.drop 4)

/-- The lines of the Pool that an add-on-write of `len` bytes updates (Table MS-8). -/
def addLines (r : Ref) (d len : Nat) : Nat :=
  match r with
  | .object _ off => granules (off + d) len
  | _ => 0

/-- Write or add a row at `d` beyond a reference. -/
def State.putBytes (s : State) (n : Nat) (r : Ref) (d dadd : Nat) (bytes : List Nat) : Acc :=
  if dadd = 0 then s.wrRef n r d bytes false
  else match s.rdRef n r d bytes.length true with
  | .bad x y s' => .bad x y s'
  | .ok old s' =>
    match s'.wrRef n r d (addBytes dadd bytes.length old bytes) true with
    | .bad x y t => .bad x y t
    | .ok b t => .ok b (t.addF F.POOL_ADD_LINES_COUNT (addLines r d bytes.length))

/-! ### Source rows -/

inductive MOut where
  | wait
  | held (team : Nat)
  | ok (bytes : List Nat) (s : State) (next : Nat)
  | bad (reason detail : Nat) (s : State)

/-- The bound of the bytes that a buffer reference may reach. -/
def State.refLimit (s : State) (n : Nat) (r : Ref) : Nat :=
  match r with
  | .loc off => (match s.slotOf n with
    | some k => (s.core k).storeTop - off
    | none => 0)
  | .remote _ off => storeSize - off
  | .object id off => (s.obj (s.partOf n) id).size - off
  | .queue _ _ => 0

/-- The bytes of a compressed row of `blocks` blocks from `d`; `none` where it reaches beyond `lim`. -/
def State.zcRowLen (s : State) (n : Nat) (r : Ref) (lim : Nat) : Nat → Nat → Option Nat
  | 0, _ => some 0
  | b + 1, d =>
    if lim < d + 8 then none
    else match s.rdRef n r d 8 false with
    | .bad _ _ _ => some 8
    | .ok m _ =>
      let len := zcBlockLen (leNat m)
      if lim < d + len then none
      else match s.zcRowLen n r lim b (d + len) with
      | none => none
      | some rest => some (len + rest)

/-- A buffer row from `d`. -/
def State.readRow (s : State) (n : Nat) (cmd : Cmd) (r : Ref) (d : Nat) : MOut :=
  if cmd.dmode = 2 then
    match s.zcRowLen n r (s.refLimit n r) (cmd.dlen / 64) d with
    | none => .bad rLengthBounds d s
    | some len =>
      match s.rdRef n r d len false with
      | .bad x y s' => .bad x y s'
      | .ok b s' => .ok (decompress (cmd.dlen / 64) b) s' (d + len)
  else match s.rdRef n r d cmd.dlen false with
    | .bad x y s' => .bad x y s'
    | .ok b s' => .ok b s' 0

/-- Source row `i`; `pos` is the offset of a compressed row in its buffer, and `next` the one after. -/
def State.srcRowD (s : State) (n : Nat) (cmd : Cmd) (i pos : Nat) : MOut :=
  if cmd.dmode = 3 then
    .ok ((List.range cmd.dlen).map fun b => (leBytes 8 cmd.w1.toNat).getD (b % 8) 0) s pos
  else match refOf cmd.w1 with
  | none => .bad rIllegalShape 0 s
  | some r =>
    let d := if cmd.dmode = 2 then pos else i * cmd.sstride
    match s.refOff n r d cmd.dlen with
    | some t => .held t
    | none => get r d
where
  get (r : Ref) (d : Nat) : MOut :=
    match r with
    | .queue c q =>
      match (s.awayAcc n (queueCore n c)).or (s.popAcc (queueCore n c) q) with
      | none => .wait
      | some (.bad x y s') => .bad x y s'
      | some (.ok b s') => .ok (if cmd.dmode = 2 then decompress (cmd.dlen / 64) b else b) s' pos
    | r => s.readRow n cmd r d

/-! ### Destination rows -/

/-- A signal that core `n` sent to the core of a reference before is still on its way: a write does not overtake it
(R255). -/
def State.behind (s : State) (n : Nat) (r : Ref) : Bool :=
  let to_ (c : Nat) : Bool := s.sigs.any fun g => g.src == n && g.dst == c
  match r with
  | .remote c _ => to_ c
  | .queue (some c) _ => to_ c
  | _ => false

/-- Write an output row: pushed, or at its stride. -/
def State.dstRow (s : State) (n : Nat) (cmd : Cmd) (j : Nat) (bytes : List Nat) : MOut :=
  match refOf cmd.w2 with
  | none => .bad rIllegalShape 0 s
  | some r =>
    if s.behind n r then .wait
    else match s.refOff n r (j * cmd.dstride) cmd.outLen with
    | some t => .held t
    | none => put r
where
  put (r : Ref) : MOut :=
    match r with
    | .queue c q =>
      match s.awayAcc n (queueCore n c) with
      | some (.bad x y s') => .bad x y s'
      | _ =>
      if s.ringBad (queueCore n c) q then .bad rLengthBounds q s
      else if s.roomAt (queueCore n c) q then .ok [] (s.pushAt (queueCore n c) q bytes) 0 else .wait
    | r =>
      match s.putBytes n r (j * cmd.dstride) cmd.dadd bytes with
      | .bad x y s' => .bad x y s'
      | .ok _ s' => .ok [] s' 0

/-- The elements of source row `i` written down column `i` of the output rows. -/
def State.scatter (s : State) (n : Nat) (cmd : Cmd) (r : Ref) (i : Nat) : List Nat → Nat → Nat → Acc
  | _, 0, _ => .ok [] s
  | bytes, m + 1, j =>
    match s.putBytes n r (j * cmd.dstride + i * cmd.dte) cmd.dadd (bytes.take cmd.dte) with
    | .bad x y s' => .bad x y s'
    | .ok _ s' => s'.scatter n cmd r i (bytes.drop cmd.dte) m (j + 1)

/-- TRANSPOSE writes each source row, down its column, before it reads the next (R122, R152). It gathers the source rows
first where a whole output row goes out at once: to a queue, and where an added element holds elements of several source
rows. (DEDUCED, log 99) -/
def Cmd.gathers (c : Cmd) : Bool :=
  decide (c.dmode = 1) && ((match refOf c.w2 with
    | some (.queue _ _) => true
    | _ => false) || decide (c.dadd ≠ 0 ∧ c.dte ≠ 4))

/-- Output row `j` of gathered source rows. -/
def Cmd.column (c : Cmd) (buf : List Nat) (j : Nat) : List Nat :=
  (List.range c.drows).flatMap fun i => (buf.drop (i * c.dlen + j * c.dte)).take c.dte

/-- One row of a DMOVE: the state and the progress after; or why it stops. -/
inductive Stepped where
  | go (s : State) (a : Active)
  | wait (s : State)
  | bad (reason detail : Nat) (s : State)

def State.dmoveRow (s : State) (n : Nat) (a : Active) : Stepped :=
  let cmd := a.cmd
  if a.done < cmd.drows then
    match s.srcRowD n cmd a.done a.aux with
    | .wait => .wait s
    | .held t => .wait (s.reachTeam t)
    | .bad r d s' => .bad r d s'
    | .ok bytes s1 pos =>
      let a' := { a with done := a.done + 1, aux := pos }
      if cmd.gathers then .go s1 { a' with buf := a.buf ++ bytes }
      else if cmd.dmode = 1 then
        match refOf cmd.w2 with
        | some r =>
          if s.behind n r then .wait s
          else (match (List.range cmd.outRows).findSome? fun j => s.refOff n r (j * cmd.dstride) cmd.outLen with
           | some t => .wait (s.reachTeam t)
           | none => match s1.scatter n cmd r a.done bytes (cmd.dlen / cmd.dte) 0 with
           | .ok _ s2 => .go s2 a'
           | .bad x y s' => .bad x y s')
        | none => .bad rIllegalShape 0 s
      else match s1.dstRow n cmd a.done bytes with
        | .wait => .wait s
        | .held t => .wait (s.reachTeam t)
        | .bad r d s' => .bad r d s'
        | .ok _ s2 _ => .go s2 a'
  else
    match s.dstRow n cmd a.sat (cmd.column a.buf a.sat) with
    | .wait => .wait s
    | .held t => .wait (s.reachTeam t)
    | .bad r d s' => .bad r d s'
    | .ok _ s2 _ => .go s2 { a with sat := a.sat + 1 }

/-- All rows are read, and all gathered rows written. -/
def Active.dmoveDone (a : Active) : Bool :=
  decide (a.cmd.drows ≤ a.done) && (!a.cmd.gathers || decide (a.cmd.outRows ≤ a.sat))

/-- Rows until the command waits, faults or has moved them all. -/
def State.dmoveRows (n : Nat) : Nat → State → Active → Stepped
  | 0, s, a => .go s a
  | f + 1, s, a =>
    if a.dmoveDone then .go s a
    else match s.dmoveRow n a with
    | .go s' a' => State.dmoveRows n f s' a'
    | .wait s' => .go s' a
    | .bad r d s' => .bad r d s'

def State.dmoveRun (s : State) (k n : Nat) (a : Active) : State :=
  match State.dmoveRows n (a.cmd.drows + a.cmd.outRows + 1) s a with
  | .go s' a' =>
    if a'.dmoveDone then s'.modCore k fun c => { c with actD := none, landD := c.landD ++ [{ a' with full := true, buf := [] }] }
    else s'.modCore k fun c => { c with actD := some a' }
  | .wait s' => s'
  | .bad r d s' => (s'.modCore k fun c => { c with actD := none }).cmdStop k n 4 a.cmd r d

/-- The queue of a reference that names one, where it holds compressed rows. -/
def State.zcQueueAt (s : State) (n : Nat) (w : W64) : Option Nat :=
  match refOf w with
  | some (.queue c q) =>
    (match s.slotOf (queueCore n c) with
     | some k => if ((s.core k).queue q).zc then some q else none
     | none => none)
  | _ => none

/-- The check of a queue that a reference names; the requests to a core that is away are answered row by row instead. -/
def State.refQueueCheck (s : State) (n : Nat) (c : Option Nat) (q size : Nat) (zc : Bool) : Option (Nat × Nat) :=
  if queueCore n c ≠ n ∧ (s.coreAway (queueCore n c)).isSome then none else s.queueCheck (queueCore n c) q size zc

/-- The checks at the DQ head (R153). A COPY between two ZC queues moves each element as it is; one from a ZC queue to
anywhere else is refused (R222). -/
def State.checkDmoveHead (s : State) (n : Nat) (cmd : Cmd) : Option (Nat × Nat) :=
  let zcCopy := if cmd.dmode = 0 then s.zcQueueAt n cmd.w1 else none
  firstBad [
    if cmd.dmode = 3 then none else
      match refOf cmd.w1 with
      | some (.queue c q) => s.refQueueCheck n c q cmd.dlen (decide (cmd.dmode = 2) || zcCopy.isSome)
      | _ => none,
    match refOf cmd.w2, zcCopy with
    | some (.queue c q), z => s.refQueueCheck n c q cmd.outLen z.isSome
    | _, some q => some (rIllegalShape, q)
    | _, none => none]

def execDmove (n : Nat) (s : State) : Out :=
  onCore n s fun k c =>
    match c.actD with
    | some a => .next (s.dmoveRun k n a)
    | none =>
      match c.dq with
      | [] => .refused .cannotOccur
      | cmd :: rest =>
        if s.mayBegin k cmd = false then .next s
        else
          let s1 := s.traceBegin k n 4 cmd
          match s.checkDmoveHead n cmd with
          | some (r, d) => .next (s.cmdStop k n 4 cmd r d 4)
          | none =>
            if cmd.dmoveEmpty then
              .next (s1.modCore k fun c => { c with dq := rest, landD := c.landD ++ [{ cmd := cmd, full := true }] })
            else
              let a : Active := { cmd := cmd }
              .next ((s1.modCore k fun c => { c with dq := rest, actD := some a }).dmoveRun k n a)

end Sys2Proof.Machine
end

