-- ==== Sys2Proof/Machine/Kv.lean ====
section
/-!
DEFINITION. KV contexts, pages and frames, and the KV Fetch Unit: KFETCH and KAPPEND (R154, R155,
R234 to R248).
-/
namespace Sys2Proof.Machine

/-! ### The control area (Tables AK-6 and AK-7) -/

def State.kvFirst (s : State) (p : Nat) : Nat := s.getF (F.KVA_CTX_RANGE_FIRST p)
def State.kvCtl (s : State) (p : Nat) : Nat :=
  s.getF (F.KVA_CTL_BASE_HI_ADDR p) * 2 ^ 32 + s.getF (F.KVA_CTL_BASE_LO_ADDR p) * 4096

/-- The slot of context `x`. -/
def State.kvSlot (s : State) (p x : Nat) : Nat := s.kvCtl p + 4096 * (x - s.kvFirst p)

def State.kvWord (s : State) (p x i : Nat) : W64 := BitVec.ofNat 64 (s.ldN (s.kvSlot p x + 8 * i) 8)
def State.kvSetWord (s : State) (p x i : Nat) (v : Nat) : State := s.stN (s.kvSlot p x + 8 * i) 8 v

/-- A context, read. -/
structure KvCtx where
  state : Nat
  fmt : Nat
  policy : Nat
  rank : Nat
  elem : Nat
  vbits : Nat
  initSz : Nat
  maxSz : Nat
  layers : Nat
  heads : Nat
  resv : Bool
  len : Nat
  npages : Nat
  oldest : Nat
  baseTok : Nat
  ringCnt : Nat
  refused : Nat
  pend : Bool
  pcount : Nat
  pdone : Nat
  pcore : Nat
  pstored : Nat
deriving DecidableEq, Repr

def State.kvRead (s : State) (p x : Nat) : KvCtx :=
  let w0 := s.kvWord p x 0
  let w1 := s.kvWord p x 1
  let w2 := s.kvWord p x 2
  let w3 := s.kvWord p x 3
  let w4 := s.kvWord p x 4
  { state := bits w0 63 62, fmt := bits w0 61 61, policy := bits w0 60 60, rank := 64 * 2 ^ bits w0 59 58,
    elem := bits w0 57 57, vbits := bits w0 56 56, initSz := bits w0 55 52, maxSz := bits w0 51 48,
    layers := bits w0 47 40, heads := bits w0 39 32, resv := clearOf w0 (maskOf 31 0),
    len := bits w1 63 47, npages := bits w1 46 38, oldest := bits w1 37 30,
    baseTok := bits w2 63 32, ringCnt := bits w2 31 0, refused := bits w3 63 32,
    pend := bit w4 63, pcount := bits w4 62 46, pdone := bits w4 45 30, pcore := bits w4 29 22, pstored := bits w4 21 5 }

/-- Write words 1 to 4, which the hardware owns. -/
def State.kvWrite (s : State) (p x : Nat) (c : KvCtx) : State :=
  (((s.kvSetWord p x 1 (c.len * 2 ^ 47 + c.npages * 2 ^ 38 + c.oldest * 2 ^ 30)).kvSetWord p x 2
    (c.baseTok % 2 ^ 32 * 2 ^ 32 + min c.ringCnt (2 ^ 32 - 1))).kvSetWord p x 3
    (min c.refused (2 ^ 32 - 1) * 2 ^ 32)).kvSetWord p x 4
    ((if c.pend then 2 ^ 63 else 0) + c.pcount * 2 ^ 46 + c.pdone * 2 ^ 30 + c.pcore * 2 ^ 22 + c.pstored * 2 ^ 5)

/-- STATE of word 0. -/
def State.kvSetState (s : State) (p x st : Nat) : State :=
  s.kvSetWord p x 0 (bits (s.kvWord p x 0) 61 0 + st * 2 ^ 62)

def State.kvPage (s : State) (p x j : Nat) : W64 := BitVec.ofNat 64 (s.ldN (s.kvSlot p x + 0x800 + 8 * (j % 256)) 8)
def State.kvSetPage (s : State) (p x j v : Nat) : State := s.stN (s.kvSlot p x + 0x800 + 8 * (j % 256)) 8 v
def pageSz (e : W64) : Nat := bits e 62 59
def pageFrame (e : W64) : Nat := bits e 27 0
def pageWord (sz first frame : Nat) : Nat := 2 ^ 63 + sz * 2 ^ 59 + first % 2 ^ 24 * 2 ^ 35 + frame

/-! ### Page layout (R240) -/

def KvCtx.units (c : KvCtx) : Nat := if c.fmt = 0 then c.layers else c.layers * c.heads * 2
def KvCtx.dBytes (c : KvCtx) : Nat := if c.fmt = 0 then c.rank else if c.vbits = 0 then 64 else 32
def KvCtx.sBytes (c : KvCtx) : Nat := if c.fmt = 0 then 2 else 4
/-- n: the largest number of tokens for which U * R is at most P. -/
def KvCtx.perPage (c : KvCtx) (sz : Nat) : Nat :=
  if c.units = 0 then 0 else 64 * (2 ^ (12 + sz) / (64 * c.units)) / (c.dBytes + c.sBytes)
def KvCtx.unitBytes (c : KvCtx) (sz : Nat) : Nat := 64 * ((c.perPage sz * (c.dBytes + c.sBytes) + 63) / 64)

def KvCtx.unit (c : KvCtx) (layer head part : Nat) : Nat :=
  if c.fmt = 0 then layer else (layer * c.heads + head) * 2 + (part - 1)

/-- The page that holds slot `t` of a context and the slot's place in it: pages in token order. -/
def State.kvFind (s : State) (p x : Nat) (c : KvCtx) : Nat → Nat → Nat → Option (W64 × Nat)
  | 0, _, _ => none
  | f + 1, j, t =>
    let e := s.kvPage p x (c.oldest + j)
    let n := c.perPage (pageSz e)
    if t < n then some (e, t) else s.kvFind p x c f (j + 1) (t - n)

/-- Slots of the pages held. -/
def State.kvCap (s : State) (p x : Nat) (c : KvCtx) : Nat :=
  ((List.range c.npages).map fun j => c.perPage (pageSz (s.kvPage p x (c.oldest + j)))).foldl (· + ·) 0

/-! ### Frames (R241) -/

def kvFree0 : Nat → List Nat := fun _ => []
def State.kvFrames (s : State) (p sz : Nat) : List Nat := tget kvFree0 s.kvFree (16 * p + sz)
def State.kvSetFrames (s : State) (p sz : Nat) (l : List Nat) : State :=
  ({ s with kvFree := tset kvFree0 s.kvFree (16 * p + sz) l }).setF (F.KVA_FREE_CNT_COUNT p sz) l.length

/-- The count of the audit of the pages of a size that contexts hold. -/
def State.kvTake (s : State) (p sz : Nat) (f : Nat → Nat) : State := { s with kvTaken := tmod (fun _ => 0) s.kvTaken (16 * p + sz) f }

/-- The largest size code from `sz` down to `lo` that has a free frame. -/
def State.kvPick (s : State) (p lo : Nat) : Nat → Option Nat
  | 0 => if lo = 0 ∧ s.kvFrames p 0 ≠ [] then some 0 else none
  | sz + 1 => if sz + 1 < lo then none else if s.kvFrames p (sz + 1) ≠ [] then some (sz + 1) else s.kvPick p lo sz

/-- The size code that the next page asks for. -/
def State.kvWant (s : State) (p x : Nat) (c : KvCtx) : Nat :=
  if c.npages = 0 then c.initSz else min c.maxSz (pageSz (s.kvPage p x (c.oldest + c.npages - 1)) + 1)

/-! ### Reservation (R243, R244) -/

/-- Where a reservation stands: the machine, the context, and the tokens reserved so far. -/
structure Resv where
  s : State
  c : KvCtx
  got : Nat := 0

/-- One token takes its slot, adding or reusing a page where it must; `none` where it is refused. A page that comes to the
end of the table has as FIRST the number of its first slot, behind every slot of the pages before it (R239). -/
def Resv.token (r : Resv) (p x : Nat) : Option Resv :=
  let used := r.c.len + r.got
  let first := r.c.baseTok + r.s.kvCap p x r.c
  if used < r.s.kvCap p x r.c ∧ used < 65536 then some { r with got := r.got + 1 }
  else
    match (if used < 65536 ∧ r.c.npages < 256 then r.s.kvPick p r.c.initSz (r.s.kvWant p x r.c) else none) with
    | some sz =>
      let fr := (r.s.kvFrames p sz).headD 0
      let s1 := (r.s.kvSetFrames p sz (r.s.kvFrames p sz).tail).kvTake p sz (· + 1)
      let s2 := s1.kvSetPage p x (r.c.oldest + r.c.npages) (pageWord sz first fr)
      let s3 := s2.setF (F.KVA_HELD_PAGES p) (s2.getF (F.KVA_HELD_PAGES p) + 1)
      some { s := s3, c := { r.c with npages := r.c.npages + 1 }, got := r.got + 1 }
    | none =>
      let e := r.s.kvPage p x r.c.oldest
      let n := r.c.perPage (pageSz e)
      if r.c.policy = 0 ∨ r.c.npages = 0 ∨ r.c.len < n then none
      else
        let s1 := r.s.kvSetPage p x r.c.oldest 0
        let s2 := s1.kvSetPage p x (r.c.oldest + r.c.npages) (pageWord (pageSz e) first (pageFrame e))
        let s3 := (s2.addF (F.KVA_RING_PAGES p) 1).raise (F.KVA_STATUS_EXHAUST p)
        some { s := s3, got := r.got + 1,
               c := { r.c with oldest := (r.c.oldest + 1) % 256, len := r.c.len - n,
                               baseTok := (r.c.baseTok + n) % 2 ^ 32, ringCnt := r.c.ringCnt + 1 } }

def Resv.tokens (p x : Nat) : Nat → Resv → Resv
  | 0, r => r
  | m + 1, r => match r.token p x with
    | some r' => Resv.tokens p x m r'
    | none => r

/-- Open an append group of `count` tokens for core `n`. -/
def State.kvOpen (s : State) (p x n count : Nat) : State :=
  let r := Resv.tokens p x count { s := s, c := s.kvRead p x }
  let refused := count - r.got
  let c := { r.c with pend := true, pcount := count, pdone := 0, pcore := n, pstored := r.got,
                      refused := r.c.refused + refused }
  let s1 := r.s.kvWrite p x c
  if refused = 0 then s1 else (s1.addF (F.KVA_REFUSED_TOKENS p) refused).raise (F.KVA_STATUS_EXHAUST p)

/-- The group of `count` tokens would reuse a page. -/
def State.kvReuses (s : State) (p x count : Nat) : Bool :=
  let c := s.kvRead p x
  decide ((Resv.tokens p x count { s := s, c := c }).c.ringCnt ≠ c.ringCnt)

/-- Abort the open group of a context: LENGTH is unchanged (Table AK-9). -/
def State.kvAbort (s : State) (p x : Nat) : State :=
  let c := s.kvRead p x
  s.kvWrite p x { c with pend := false, pcount := 0, pdone := 0, pcore := 0, pstored := 0 }

/-- A KAPPEND of the group has completed; the last one completes the group (R243). -/
def State.kvAppended (s : State) (p x : Nat) : State :=
  let c := s.kvRead p x
  if c.pend = false then s
  else if c.pdone + 1 = c.units then
    s.kvWrite p x { c with len := c.len + c.pstored, pend := false, pcount := 0, pdone := 0, pcore := 0, pstored := 0 }
  else s.kvWrite p x { c with pdone := c.pdone + 1 }

/-! ### Quantisation (R236, R237) -/

/-- The scale and the codes of a block of FP16 elements. `fmt` is the code format. -/
def quantBlock (fmt : Nat) (l : List Nat) : Nat × List Nat :=
  let vals := l.map (fdec fmtF16)
  let a : FV := vals.foldl (fun (m v : FV) => if v.isNaN then m else m.maxNum v.abs) (.fin false 0 0)
  let qmax := if fmt = 3 then 448 else if fmt = 0 then 7 else 127
  let s32 := fenc fmtF32 (FV.div 40 a (ofInt qmax))
  let sg := (fnarrow fmtF16 (fdec fmtF32 s32)).1
  let sv := fdec fmtF16 sg
  let code (v : FV) : Nat :=
    if v.isNaN then (if fmt = 3 then 0x7F else 0)
    else if sv.isZero then 0
    else
      let q := fdec fmtF32 (fenc fmtF32 (FV.div 40 v sv))
      if fmt = 3 then (fnarrow fmtE4M3 q).1 else intCode (fmtBits fmt) (fToInt (fmtBits fmt) q)
  (sg, vals.map code)

/-- 2-byte codes of a byte list. -/
def halves : List Nat → List Nat
  | a :: b :: t => (a + 256 * b) :: halves t
  | _ => []

/-- A quantised token: data bytes and scale bytes. -/
def KvCtx.quantise (c : KvCtx) (bytes : List Nat) : List Nat × List Nat :=
  let h := halves bytes
  if c.fmt = 0 then
    let (sg, codes) := quantBlock (if c.elem = 0 then 1 else 3) (h.take c.rank)
    (codes, leBytes 2 sg)
  else
    let f := if c.vbits = 0 then 1 else 0
    let (s0, c0) := quantBlock f (h.take 32)
    let (s1, c1) := quantBlock f ((h.drop 32).take 32)
    (leBytes c.dBytes (packCodes (fmtBits f) (c0 ++ c1)), leBytes 2 s0 ++ leBytes 2 s1)

/-- A Vullatan token read: each value is scale * code in FP32, narrowed to FP16. -/
def KvCtx.dequantise (c : KvCtx) (data scales : List Nat) : List Nat :=
  let w := if c.vbits = 0 then 8 else 4
  let codes := unpackCodes w 64 (leNat data)
  let out := (List.range 64).map fun e =>
    let sg := fdec fmtF16 (leNat ((scales.drop (2 * (e / 32))).take 2))
    let v := fenc fmtF32 (sg.mul (ofInt (signedOf w (codes.getD e 0))))
    (fnarrow fmtF16 (fdec fmtF32 v)).1
  leBytes 128 (packCodes 16 out)

/-! ### Checks at the KQ head (R155, R236, R246) -/

/-- How a token queue's elements stand for tokens. -/
inductive KvLayout where
  | planes
  | whole
  | latents
deriving DecidableEq, Repr

/-- The layout of Table AK-5 for an element size; `none` where the table lists none. -/
def KvCtx.layout (c : KvCtx) (append scen : Bool) (esize : Nat) : Option KvLayout :=
  if c.fmt = 1 then (if scen = false ∧ esize = 128 then some .latents else none)
  else if esize = 64 then (if append ∧ scen = false then none else some .planes)
  else if esize = c.rank then (if append ∧ scen = false then none else some .whole)
  else if append ∧ scen = false ∧ esize = 2 * c.rank then some .latents
  else none

def State.kvLayout (s : State) (k : Nat) (cmd : Cmd) (c : KvCtx) : Option KvLayout :=
  let q := (s.core k).queue cmd.kdq
  if q.depth = 0 ∨ q.zc then none else c.layout (decide (cmd.opc = 0x41)) cmd.kscen (esizeBytes q.esize)

def State.checkKvHead (s : State) (k n : Nat) (cmd : Cmd) (c : KvCtx) : Option (Nat × Nat) :=
  firstBad [
    if c.state ≠ 1 then some (rPermission, cmd.kctx) else none,
    shape (decide ((cmd.kpart = 0 ↔ c.fmt = 0) ∧ cmd.kpart ≠ 3 ∧ cmd.klayer < c.layers ∧
      (if c.fmt = 0 then cmd.khead = 0 else cmd.khead < c.heads))),
    shape (s.kvLayout k cmd c).isSome cmd.kdq,
    if (s.core k).ringOk ((s.core k).queue cmd.kdq) then none else some (rLengthBounds, cmd.kdq),
    if cmd.kscen then s.queueCheck n cmd.kscq 128 false else none,
    if cmd.opc = 0x40 ∧ c.len < cmd.kfirst + cmd.kcount then some (rLengthBounds, cmd.kfirst) else none]

/-! ### Moving tokens -/

def State.kvArena (s : State) (p : Nat) : Nat := s.getF (F.KVA_ARENA_OBJ p)

/-- The object offset of slot `t`'s data and of its scales at unit `u`. -/
def State.kvPlace (s : State) (p x : Nat) (c : KvCtx) (u t : Nat) : Option (Nat × Nat) :=
  match s.kvFind p x c 257 0 t with
  | none => none
  | some (e, i) =>
    let b := 4096 * pageFrame e + u * c.unitBytes (pageSz e)
    some (b + i * c.dBytes, b + c.perPage (pageSz e) * c.dBytes + i * c.sBytes)

/-- Element `i` of a command in its layout: the plane and the token. -/
def elemAt (lay : KvLayout) (count i : Nat) : Nat × Nat :=
  match lay with
  | .planes => let n4 := (count + 3) / 4 * 4; (i / n4, i % n4)
  | _ => (0, i)

/-- Elements of a command. -/
def KvCtx.elems (c : KvCtx) (lay : KvLayout) (count : Nat) : Nat :=
  match lay with
  | .planes => (count + 3) / 4 * 4 * (c.rank / 64)
  | _ => count

/-- Bytes of a token that one element reads. -/
def KvCtx.readLen (c : KvCtx) (lay : KvLayout) : Nat := if lay = .planes then 64 else c.dBytes

/-- The scales of up to 64 tokens from slot `t`, as one element. -/
def State.kvScales (s : State) (p x : Nat) (c : KvCtx) (u t : Nat) : Nat → Acc
  | 0 => .ok [] s
  | m + 1 => match s.kvPlace p x c u t with
    | none => .bad rUncorrectable x s
    | some (_, so) => match s.rdObj p (s.kvArena p) so 2 false with
      | .bad r d s' => .bad r d s'
      | .ok b s1 => match s1.kvScales p x c u (t + 1) m with
        | .bad r d s' => .bad r d s'
        | .ok l s2 => .ok (b ++ l) s2

/-- One element of a KFETCH: a scale element where one is due, else a token element. -/
def State.kfetchStep (s : State) (n p : Nat) (lay : KvLayout) (c : KvCtx) (a : Active) : Stepped :=
  let cmd := a.cmd
  let x := cmd.kctx
  let u := c.unit cmd.klayer cmd.khead cmd.kpart
  let (pl, t) := elemAt lay cmd.kcount a.done
  if cmd.kscen ∧ pl = 0 ∧ a.aux = t / 64 ∧ t < cmd.kcount then
    let m := min 64 (cmd.kcount - t)
    if s.roomAt n cmd.kscq then
      if s.ringBad n cmd.kscq then .bad rLengthBounds cmd.kscq s
      else match s.kvScales p x c u (cmd.kfirst + t) m with
      | .bad r d s' => .bad r d s'
      | .ok l s1 => .go (s1.pushAt n cmd.kscq (l ++ List.replicate (128 - 2 * m) 0)) { a with aux := a.aux + 1 }
    else .wait s
  else if s.roomAt n cmd.kdq = false then .wait s
  else if s.ringBad n cmd.kdq then .bad rLengthBounds cmd.kdq s
  else if cmd.kcount ≤ t then .go (s.pushAt n cmd.kdq (List.replicate 64 0)) { a with done := a.done + 1 }
  else match s.kvPlace p x c u (cmd.kfirst + t) with
  | none => .bad rUncorrectable x s
  | some (o, so) =>
    match s.refOff n (.object (s.kvArena p) (o + 64 * pl)) 0 (c.readLen lay) with
    | some tm => .wait (s.reachTeam tm)
    | none => readPush o so pl
where
  readPush (o so pl : Nat) : Stepped :=
    let cmd := a.cmd
    let len := c.readLen lay
    match s.rdObj p (s.kvArena p) (o + 64 * pl) len false with
    | .bad r d s' => .bad r d s'
    | .ok b s1 =>
      if c.fmt = 1 then
        match s1.rdObj p (s.kvArena p) so 4 false with
        | .bad r d s' => .bad r d s'
        | .ok sc s2 => .go (s2.pushAt n cmd.kdq (c.dequantise b sc)) { a with done := a.done + 1 }
      else .go (s1.pushAt n cmd.kdq b) { a with done := a.done + 1 }

/-- One element of a KAPPEND: pop a scale element where one is due, else a token element, and store it
where it is among the tokens that the group stores. -/
def State.kappendStep (s : State) (n p : Nat) (lay : KvLayout) (c : KvCtx) (a : Active) : Stepped :=
  let cmd := a.cmd
  let x := cmd.kctx
  let u := c.unit cmd.klayer cmd.khead cmd.kpart
  let (pl, t) := elemAt lay cmd.kcount a.done
  if cmd.kscen ∧ pl = 0 ∧ a.aux = t / 64 ∧ t < cmd.kcount then
    match s.popAcc n cmd.kscq with
    | none => .wait s
    | some (.bad r d s') => .bad r d s'
    | some (.ok b s1) => .go s1 { a with aux := a.aux + 1, buf := b }
  else match s.popAcc n cmd.kdq with
  | none => .wait s
  | some (.bad r d s') => .bad r d s'
  | some (.ok b s1) =>
    let a' := { a with done := a.done + 1 }
    if c.pstored ≤ t then .go s1 a'
    else match s.kvPlace p x c u (c.len + t) with
    | none => .go s1 a'
    | some (o, so) =>
      match s.refOff n (.object (s.kvArena p) (o + 64 * pl)) 0 (c.readLen lay) with
      | some tm => .wait (s.reachTeam tm)
      | none => store s1 a' b o so pl t
where
  store (s1 : State) (a' : Active) (b : List Nat) (o so pl t : Nat) : Stepped :=
    let (data, scale) := if lay = .latents then c.quantise b
      else (b, if pl = 0 then (a.buf.drop (2 * (t % 64))).take 2 else [])
    match s1.wrObj p (s.kvArena p) (o + 64 * pl) data false with
    | .bad r d s' => .bad r d s'
    | .ok _ s2 =>
      if scale = [] then .go s2 a'
      else match s2.wrObj p (s.kvArena p) so scale false with
      | .bad r d s' => .bad r d s'
      | .ok _ s3 => .go s3 a'

/-- Elements until the command waits, faults or has moved them all. -/
def State.kvMove (n p : Nat) (lay : KvLayout) (c : KvCtx) : Nat → State → Active → Stepped
  | 0, s, a => .go s a
  | f + 1, s, a =>
    if c.elems lay a.cmd.kcount ≤ a.done then .go s a
    else match (if a.cmd.opc = 0x41 then s.kappendStep n p lay c a else s.kfetchStep n p lay c a) with
    | .go s' a' => State.kvMove n p lay c f s' a'
    | .wait s' => .go s' a
    | .bad r d s' => .bad r d s'

/-- A fault of a KV command: a KAPPEND's group is aborted (Table AK-9). -/
def State.kvStop (s : State) (k n p : Nat) (cmd : Cmd) (r d ev : Nat) : State :=
  let s1 := (s.modCore k fun c => { c with actK := none }).cmdStop k n 5 cmd r d ev
  if cmd.opc = 0x41 ∧ ev = 3 then s1.kvAbort p cmd.kctx else s1

def State.kvRun (s : State) (k n p : Nat) (a : Active) : State :=
  let c := s.kvRead p a.cmd.kctx
  match s.kvLayout k a.cmd c with
  | none => s.kvStop k n p a.cmd rIllegalShape a.cmd.kdq 3
  | some lay =>
    match State.kvMove n p lay c (2 * c.elems lay a.cmd.kcount + 2) s a with
    | .go s' a' => s'.modCore k fun cr =>
        { cr with actK := some { a' with full := decide (c.elems lay a.cmd.kcount ≤ a'.done) } }
    | .wait s' => s'
    | .bad r d s' => s'.kvStop k n p a.cmd r d 3

/-- Some core has a KFETCH of the context in progress. -/
def State.kvFetching (s : State) (p x : Nat) : Bool :=
  s.cores.any fun e => match e.2.actK with
    | some a => decide (a.cmd.opc = 0x40 ∧ a.cmd.kctx = x) && decide (s.partOf a.cmd.core = p)
    | none => false

/-- The first unit of a group (R243). -/
def Cmd.opensGroup (c : Cmd) : Bool := decide (c.klayer = 0 ∧ c.khead = 0 ∧ c.kpart < 2)

/-- A reuse of the context waits for a KFETCH (R246): an opening KAPPEND noted as waiting is still at the head of its KQ. -/
def State.kvReusing (s : State) (p x : Nat) : Bool :=
  s.kvReuse.contains (4096 * p + x) && decide ((s.kvRead p x).state = 1) && !(s.kvRead p x).pend &&
    s.cores.any fun e => !e.2.faulted && match e.2.kq with
      | [] => false
      | cmd :: _ => decide (cmd.opc = 0x41 ∧ cmd.kctx = x ∧ s.partOf cmd.core = p) && cmd.opensGroup

/-- Begin a KV command; `opened` says that it opens or joins its group in `s`. -/
def State.kvBegin (s : State) (k n p : Nat) (cmd : Cmd) : State :=
  let s1 := (s.traceBegin k n 5 cmd).modCore k fun c => { c with kq := c.kq.tail, actK := some { cmd := cmd } }
  if cmd.kcount = 0 then s1.modCore k fun c => { c with actK := some { cmd := cmd, full := true } }
  else s1.kvRun k n p { cmd := cmd }

def execKfetch (n : Nat) (s : State) : Out :=
  onCore n s fun k cr =>
    let p := s.partOf n
    match cr.actK with
    | some a => if a.cmd.opc ≠ 0x40 then .refused .otherInstruction
                else if a.full then .next s else .next (s.kvRun k n p a)
    | none =>
      match cr.kq with
      | [] => .refused .cannotOccur
      | cmd :: _ =>
        if cmd.opc ≠ 0x40 then .refused .otherInstruction
        else if s.mayBegin k cmd = false ∨ s.kvReusing p cmd.kctx then .next s
        else match s.checkKvHead k n cmd (s.kvRead p cmd.kctx) with
        | some (r, d) => .next (s.kvStop k n p cmd r d 4)
        | none => .next (s.kvBegin k n p cmd)

/-- A COUNT of 0 passes through every check like any other, and opens nothing (R111). (DEDUCED, log 27) -/
def execKappend (n : Nat) (s : State) : Out :=
  onCore n s fun k cr =>
    let p := s.partOf n
    match cr.actK with
    | some a => if a.cmd.opc ≠ 0x41 then .refused .otherInstruction
                else if a.full then .next s else .next (s.kvRun k n p a)
    | none =>
      match cr.kq with
      | [] => .refused .cannotOccur
      | cmd :: _ =>
        if cmd.opc ≠ 0x41 then .refused .otherInstruction
        else if s.mayBegin k cmd = false then .next s
        else
          let x := cmd.kctx
          let c := s.kvRead p x
          match s.checkKvHead k n cmd c with
          | some (r, d) => .next (s.kvStop k n p cmd r d 4)
          | none =>
            if cmd.opensGroup then
              if c.pend then (if c.pcore = n then .next (s.kvStop k n p cmd rIllegalShape x 4) else .next s)
              else if cmd.kcount = 0 then .next (s.kvBegin k n p cmd)
              else if s.kvReuses p x cmd.kcount ∧ s.kvFetching p x then
                .next { s with kvReuse := if s.kvReuse.contains (4096 * p + x) then s.kvReuse
                                          else (4096 * p + x) :: s.kvReuse }
              else
                let s1 := { s with kvReuse := s.kvReuse.filter (· != 4096 * p + x) }
                .next ((s1.kvOpen p x n cmd.kcount).kvBegin k n p cmd)
            else if c.pend = false ∨ c.pcount ≠ cmd.kcount then .next (s.kvStop k n p cmd rIllegalShape x 4)
            else .next (s.kvBegin k n p cmd)

/-! ### Contexts (R242) -/

/-- The fields of word 0 lie in their ranges. -/
def KvCtx.fieldsOk (c : KvCtx) : Bool :=
  decide (c.initSz ≤ 8 ∧ c.initSz ≤ c.maxSz ∧ c.maxSz ≤ 8 ∧ 1 ≤ c.layers) && c.resv &&
  (if c.fmt = 0 then decide (c.heads = 0) else decide (1 ≤ c.heads ∧ c.heads ≤ 64))

def State.kvReject (s : State) (p : Nat) : State := s.raise (F.KVA_STATUS_CMD_REJECT p)

/-- Apply ACTIVATE at the snapshot. -/
def State.kvActivate (s : State) (p x : Nat) : State :=
  let c := s.kvRead p x
  if s.kvInShare p x ∧ c.state = 0 ∧ c.fieldsOk ∧ 0 < c.perPage c.initSz then s.kvSetState p x 1
  else s.kvReject p

/-- Apply RELEASE at the snapshot. -/
def State.kvRelease (s : State) (p x : Nat) : State :=
  if s.kvInShare p x ∧ (s.kvRead p x).state = 1 then (s.kvAbort p x).kvSetState p x 2 else s.kvReject p

/-- A KV command of the context has begun and not completed. -/
def State.kvInFlight (s : State) (p x : Nat) : Bool :=
  s.cores.any fun e => match e.2.actK with
    | some a => decide (a.cmd.kctx = x) && decide (s.partOf a.cmd.core = p)
    | none => false

/-- Give the pages of a context back to their free lists. -/
def State.kvReturn (s : State) (p x : Nat) (c : KvCtx) : Nat → State
  | 0 => s
  | m + 1 =>
    let e := s.kvPage p x (c.oldest + m)
    let sz := pageSz e
    let s1 := ((s.kvSetFrames p sz (s.kvFrames p sz ++ [pageFrame e])).kvTake p sz (· - 1)).kvSetPage p x (c.oldest + m) 0
    (s1.setF (F.KVA_HELD_PAGES p) (s1.getF (F.KVA_HELD_PAGES p) - 1)).kvReturn p x c m

/-- A RELEASING context becomes FREE. -/
def State.kvFreeCtx (s : State) (p x : Nat) : State :=
  let c := s.kvRead p x
  let s1 := s.kvReturn p x c c.npages
  (s1.kvWrite p x { c with len := 0, npages := 0, oldest := 0, baseTok := 0, ringCnt := 0, refused := 0, pend := false,
                           pcount := 0, pdone := 0, pcore := 0, pstored := 0 }).kvSetState p x 0

/-- The contexts of a removed partition become FREE, its free lists are emptied, and its KVA registers return to their
reset values (R248). -/
def State.kvRemove (s : State) (p : Nat) : State :=
  let s1 := (List.range (s.getF (F.KVA_CTX_RANGE_COUNT p))).foldl (fun u i =>
    if (u.kvRead p (u.kvFirst p + i)).state = 0 then u else u.kvFreeCtx p (u.kvFirst p + i)) s
  { s1 with kvFree := s1.kvFree.filter fun e => e.1 / 16 ≠ p, kvReuse := s1.kvReuse.filter fun e => e / 4096 ≠ p,
            kvPushes := s1.kvPushes.filter fun e => e.1 / 16 ≠ p, kvTaken := s1.kvTaken.filter fun e => e.1 / 16 ≠ p,
            regs := s1.regs.filter fun e => e.1 / 0x100 ≠ 0x3C00 + p }

def execKvReleaseComplete (p x : Nat) (s : State) : Out :=
  if s.phase ≠ .up then .refused .cannotOccur
  else if s.kvInShare p x ∧ (s.kvRead p x).state = 2 ∧ s.kvInFlight p x = false then .next (s.kvFreeCtx p x)
  else .refused .cannotOccur

/-- Apply KVA_FREE_PUSH: the frame is aligned to its size and lies within the arena. -/
def State.kvPush (s : State) (p sz frame : Nat) : State :=
  let x := s.obj p (s.kvArena p)
  if sz ≤ 8 ∧ frame % 2 ^ sz = 0 ∧ x.stage = 2 ∧ 4096 * (frame + 2 ^ sz) ≤ x.size then
    let s1 := s.kvSetFrames p sz (s.kvFrames p sz ++ [frame])
    { s1 with kvPushes := tmod (fun _ => 0) s1.kvPushes (16 * p + sz) (· + 1) }
  else s.raise (F.KVA_STATUS_PUSH_REJECT p)

/-- A partition's data. -/
def part0 : Nat → Part := fun _ => {}
def State.part (s : State) (p : Nat) : Part := tget part0 s.parts p

/-- Every context of a share is FREE. -/
def State.kvAllFree (s : State) (p : Nat) : Bool :=
  (List.range (s.getF (F.KVA_CTX_RANGE_COUNT p))).all fun i => decide ((s.kvRead p (s.kvFirst p + i)).state = 0)

/-- Two ranges of contexts overlap. -/
def overlap (a na b nb : Nat) : Bool := decide (a < b + nb ∧ b < a + na)

/-- Apply a write of KVA_CTL_BASE, KVA_CTX_RANGE or KVA_ARENA. -/
def State.kvConfig (s : State) (p off : Nat) (v : W32) : State :=
  let base := 0x3C0000 + 0x100 * p
  let t := s.portWrite (base + off) v
  let range := decide (∃ q : Fin 8, q.val ≠ p ∧ overlap (t.kvFirst p) (t.getF (F.KVA_CTX_RANGE_COUNT p))
    (s.kvFirst q) (s.getF (F.KVA_CTX_RANGE_COUNT q)) = true)
  let lo := (s.part p).gddrBase * 0x100000
  let hi := lo + (s.part p).gddrSize * 0x100000
  let inside := decide (lo ≤ t.kvCtl p ∧ t.kvCtl p + 4096 * t.getF (F.KVA_CTX_RANGE_COUNT p) ≤ hi)
  if s.kvAllFree p = false ∨ range ∨ ((off = 0x00 ∨ off = 0x04 ∨ off = 0x08) ∧ inside = false ∧ 0 < t.getF (F.KVA_CTX_RANGE_COUNT p)) then
    s.kvReject p
  else t

/-- Latch an event that an accepted port raises in a partition's window. -/
def kvaLatch (s : State) (port : Port) (p : Nat) (e : Ev) : Out :=
  if s.phase ≠ .up then unreached s else .next (if s.partPort port p then s.latch e else s.denied port)

def execKvActivate (port : Port) (p x : Nat) (s : State) : Out := kvaLatch s port p (.kvCmd p 1 x)
def execKvRelease (port : Port) (p x : Nat) (s : State) : Out := kvaLatch s port p (.kvCmd p 2 x)
def execKvaFreePush (port : Port) (p : Nat) (w : W32) (s : State) : Out :=
  kvaLatch s port p (.kvPush p (fieldOf w 28 4) (fieldOf w 0 28))
def execKvaConfigWrite (port : Port) (p off : Nat) (w : W32) (s : State) : Out :=
  if off = 0 ∨ off = 4 ∨ off = 8 ∨ off = 0xC then kvaLatch s port p (.kvConfig p off w) else .refused .noSuchUnit

end Sys2Proof.Machine
end

