-- ==== Sys2Proof/Machine/Edge.lean ====
section
/-!
DEFINITION. The Team engines: ECONV, EBOX and ENMS of the Edge engine, FFTC of the FFT engine (R79,
R80, R156 to R158, R215 to R219). A command runs whole once it begins.
-/
namespace Sys2Proof.Machine

/-! ### The head of EQ and FQ (R62, R492) -/

/-- The command a Team engine takes: the first that its core may begin and before which no entry of
the same core waits. -/
def pickEntry (s : State) : List Cmd → List Nat → Option Cmd
  | [], _ => none
  | c :: cs, seen =>
    match s.slotOf c.core with
    | none => pickEntry s cs (c.core :: seen)
    | some k =>
      if seen.contains c.core = false ∧ s.mayBegin k c then some c else pickEntry s cs (c.core :: seen)

def dropEntry (c : Cmd) (l : List Cmd) : List Cmd := l.erase c

/-- Run `body` on the entry that the Edge engine of Team `t` takes, if its opcode is `opc`, once it has read the
command's descriptor block. -/
def edgeHead (t opc : Nat) (s : State) (body : Nat → Cmd → State → Out) : Out :=
  if s.phase ≠ .up then .refused .cannotOccur
  else if s.edgePresent t = false then .refused .noSuchUnit
  else if (s.team t).actE.isSome then .refused .cannotOccur
  else match pickEntry s (s.team t).eq [] with
  | none => .refused .cannotOccur
  | some c =>
    if c.opc ≠ opc then .refused .otherInstruction
    else match s.slotOf c.core with
    | none => .refused .noSuchUnit
    | some k =>
      let blk := bits c.w1 20 0
      if s.ueHit (storeBase c.core + blk) 32 then
        .next ((s.logStoreUe c.core blk).cmdStop k c.core 6 c rUncorrectable blk)
      else body k c s

/-- The Edge engine has done all of a command but its completion. -/
def State.edgeDone (s : State) (t : Nat) (c : Cmd) : State :=
  s.modTeam t fun x => { x with eq := dropEntry c x.eq, actE := some { cmd := c, full := true } }

/-- Word `i` of a descriptor block. -/
def State.blockWord (s : State) (n off i : Nat) : W64 := BitVec.ofNat 64 (s.ldN (storeBase n + off + 8 * i) 8)

def edgeSpaces (write : Bool) : Spaces := { sameTeam := true, pinned := true, queue := false, write := write }

/-- A LOCAL reference with `len` bytes below STORE_TOP (and aligned). -/
def checkLocal (top align len : Nat) (w : W64) : Option (Nat × Nat) :=
  match refOf w with
  | some (.loc off) => firstBad [shape (decide (off % align = 0)) off, below top off len]
  | some _ => some (rPermission, 0)
  | none => shape false

/-- The first Team, of those that the references reach with their extents, that is not ON. -/
def State.anyHeld (s : State) (n : Nat) (ws : List (W64 × Nat)) : Option Nat := ws.findSome? fun w => s.refHeld n w.1 w.2

/-- Read through a word that has passed its check. -/
def State.rdWord (s : State) (n : Nat) (w : W64) (len : Nat) : Acc :=
  match refOf w with
  | none => .bad rIllegalShape 0 s
  | some r => s.rdRef n r 0 len true

def State.wrWord (s : State) (n : Nat) (w : W64) (d : Nat) (bytes : List Nat) : Acc :=
  match refOf w with
  | none => .bad rIllegalShape 0 s
  | some r => s.wrRef n r d bytes true

/-! ### ECONV (R156, R191) -/

/-- The slot that a parameter block gives ECONV: stages 1 and 8 on, 5 and 6 off, OFMT of the command. -/
def econvSlot (x : CrSlot) (ofmt : Nat) : CrSlot :=
  let keep := x.w0 &&& BitVec.ofNat 64 (maskOf 50 0 + 2 ^ 57 + 2 ^ 58 + 2 ^ 59 + 2 ^ 62)
  { x with w0 := keep ||| BitVec.ofNat 64 (2 ^ 56 + 2 ^ 63 + ofmt * 2 ^ 52) }

/-- The input value at a tap: AZP in the padding. -/
def econvIn (c : Cmd) (azp : Int) (inp : List Nat) (y x : Int) (ci : Nat) : Int :=
  if y < 0 ∨ x < 0 ∨ (c.eH : Int) ≤ y ∨ (c.eW : Int) ≤ x then azp
  else signedOf 8 (inp.getD ((y.toNat * c.eW + x.toNat) * c.eCI + ci) 0)

/-- The taps of an output position, in the weights' order: ky, kx, ci and the input value. -/
def econvTaps (c : Cmd) (azp : Int) (inp : List Nat) (oy ox : Nat) : List Int :=
  (List.range c.eKH).flatMap fun ky => (List.range c.eKW).flatMap fun kx => (List.range c.eCI).map fun ci =>
    econvIn c azp inp ((oy * c.eSH + ky * c.eDIL : Nat) - (c.ePT : Int)) ((ox * c.eSW + kx * c.eDIL : Nat) - (c.ePL : Int)) ci

/-- sum of x * w. -/
def dot : List Int → List Nat → Int
  | x :: xs, w :: ws => x * signedOf 8 w + dot xs ws
  | _, _ => 0

/-- The sums of an ECONV, row by row: what the stages need of its position, its channel and its sum. -/
def econvSums (n : Nat) (c : Cmd) (x : CrSlot) (inp wts : List Nat) : List (RowCtx × Nat × Nat) :=
  let per := c.eKH * c.eKW * c.eCI
  (List.range (c.eOH * c.eOW)).flatMap fun o =>
    let taps := econvTaps c x.azp inp (o / c.eOW) (o % c.eOW)
    let ctx : RowCtx := { core := n, intAcc := true, rs := word (sumInt taps), keyRec := 0, d0 := 0, resid := [] }
    (List.range c.eCO).map fun co => (ctx, co, word (dot taps ((wts.drop (co * per)).take per)))

/-- Every output of an ECONV, row by row: its bytes and the elements clamped. The entries for channels from 64 on are read
behind the 64 of a table. (DEDUCED, log 107) -/
def State.econvOut (s : State) (n : Nat) (c : Cmd) (x : CrSlot) (inp wts : List Nat) : List Nat × Nat :=
  let res := (econvSums n c x inp wts).map fun e => s.chainElem x e.1 e.2.1 e.2.2
  (res.flatMap fun e => leBytes (fmtBits x.ofmt / 8) e.1, (res.filter (·.2)).length)

/-- The first uncorrectable error in a table entry that an ECONV reads (R31). -/
def State.econvUe (s : State) (n : Nat) (c : Cmd) (x : CrSlot) (inp wts : List Nat) : Option Nat :=
  s.readUe n ((econvSums n c x inp wts).flatMap fun e => s.elemReads x e.1 e.2.1 e.2.2)

/-- The checks at the EQ head: the extents of the block's references, and of the parameter block what XCFG checks of one
(R149), with the command's OFMT in place of its own; the block may stand at any offset. (DEDUCED, log 107) -/
def checkEconvHead (s : State) (n top : Nat) (c : Cmd) (w0 w1 w2 w3 : W64) : Option (Nat × Nat) :=
  firstBad [
    s.refCheck n top (edgeSpaces false) w0 (c.eH * c.eW * c.eCI),
    s.refCheck n top (edgeSpaces true) w1 (c.eOH * c.eOW * c.eCO * (if c.eOFMT = 7 then 4 else 1)),
    s.refCheck n top (edgeSpaces false) w2 (c.eCO * c.eKH * c.eKW * c.eCI),
    checkLocal top 1 128 w3,
    let (x, rest) := s.paramBlock n (bits w3 20 0)
    checkParamBlock top rest (econvSlot x c.eOFMT)]

def execEconv (t : Nat) (s : State) : Out :=
  edgeHead t 0x50 s fun k c s =>
    let n := c.core
    let top := (s.core k).storeTop
    let blk := bits c.w1 20 0
    let w (i : Nat) : W64 := s.blockWord n blk i
    match checkEconvHead s n top c (w 0) (w 1) (w 2) (w 3) with
    | some (r, d) => .next (s.cmdStop k n 6 c r d 4)
    | none =>
      if c.econvEmpty then .next (s.edgeDone t c)
      else match s.anyHeld n [(w 0, c.eH * c.eW * c.eCI), (w 1, c.eOH * c.eOW * c.eCO * (if c.eOFMT = 7 then 4 else 1)),
          (w 2, c.eCO * c.eKH * c.eKW * c.eCI)] with
      | some tm => .next (s.reachTeam tm)
      | none =>
        let s := s.traceBegin k n 6 c
        let x := econvSlot (s.paramBlock n (bits (w 3) 20 0)).1 c.eOFMT
        match s.rdWord n (w 0) (c.eH * c.eW * c.eCI) with
        | .bad r d s' => .next (s'.cmdStop k n 6 c r d)
        | .ok inp s1 =>
          match s1.rdWord n (w 2) (c.eCO * c.eKH * c.eKW * c.eCI) with
          | .bad r d s' => .next (s'.cmdStop k n 6 c r d)
          | .ok wts s2 =>
            match (s2.readUe n [(bits (w 3) 20 0, 128)]).or (s2.econvUe n c x inp wts) with
            | some off => .next ((s2.logStoreUe n off).cmdStop k n 6 c rUncorrectable off)
            | none =>
              let (out, sat) := s2.econvOut n c x inp wts
              match s2.wrWord n (w 1) 0 out with
              | .bad r d s' => .next (s'.cmdStop k n 6 c r d)
              | .ok _ s3 => .next ((s3.addF (F.CR_SAT_COUNT_ELEMENTS k) sat).edgeDone t c)

/-! ### EBOX (R216, R217) -/

def f32s (f : FV → FV → FV) (a b : Nat) : Nat := fenc fmtF32 (f (fdec fmtF32 a) (fdec fmtF32 b))
def f32Sub (a b : Nat) : Nat := fenc fmtF32 ((fdec fmtF32 a).add (fdec fmtF32 b).neg)
def to16 (v : Nat) : Nat := (fnarrow fmtF16 (fdec fmtF32 v)).1
/-- a >= b, false with a NaN. -/
def f32Ge (a b : Nat) : Bool :=
  match (fdec fmtF32 a).cmp (fdec fmtF32 b) with
  | some .gt => true
  | some .eq => true
  | _ => false
def f32Gt (a b : Nat) : Bool := decide ((fdec fmtF32 a).cmp (fdec fmtF32 b) = some .gt)

/-- sigma and e^x within 4 places of exact; `u` numbers the use. -/
def State.sigma (s : State) (v u : Nat) : Nat := within 4 (sigmoidV (fdec fmtF32 v)) (Config.freeNat (s.fresh + u))
def State.expo (s : State) (v u : Nat) : Nat := withinOf 4 (fdec fmtF32 v) (expV (fdec fmtF32 v)) (Config.freeNat (s.fresh + u))

/-- A decode parameter block, by its words. -/
structure BoxParam where
  w0 : W64
  w1 : W64
  anchors : List W64
  rest : Nat

def State.boxParam (s : State) (n off : Nat) : BoxParam :=
  { w0 := s.blockWord n off 0, w1 := s.blockWord n off 1,
    anchors := (List.range 4).map fun i => s.blockWord n off (2 + i),
    rest := s.ldN (storeBase n + off + 48) 16 }

def BoxParam.stride (b : BoxParam) : Nat := bits b.w0 15 8

/-- The best class of scores: the highest, ties to the lower class. -/
def bestClass : List Nat → Nat → Nat → Nat → Nat × Nat
  | [], _, bi, bv => (bi, bv)
  | v :: vs, i, bi, bv => if f32Gt v bv then bestClass vs (i + 1) i v else bestClass vs (i + 1) bi bv

/-- The record of one anchor, where it is a candidate. `use` numbers its first free value. -/
def State.boxOne (s : State) (c : Cmd) (b : BoxParam) (inp : List Nat) (cell a use : Nat) : Option (List Nat) :=
  let idx := cell * c.bANCH + a
  let base := idx * (4 + c.bCLASSES)
  let zp := signedOf 16 (bits b.w0 31 16)
  let val (e : Nat) : Nat :=
    f32Mul (bits b.w0 63 32) (f32OfInt (signedOf 8 (inp.getD (base + e) 0) - zp))
  let sg := bit b.w0 1
  let scores := (List.range c.bCLASSES).map fun j => if sg then s.sigma (val (4 + j)) (use + 4 + j) else val (4 + j)
  let (cls, best) := bestClass scores.tail 1 0 (scores.headD 0)
  let thr := f16to32 (bits c.w3 63 48)
  if f32Ge best thr = false then none
  else
    let gx := f32OfInt (cell % c.bGW : Nat)
    let gy := f32OfInt (cell / c.bGW : Nat)
    let st := f32OfInt (b.stride : Nat)
    let half := 0x3F000000
    let (x1, y1, x2, y2) :=
      if bit b.w0 0 = false then
        let anc := (b.anchors.getD (a / 2) 0).toNat / 2 ^ (32 * (a % 2)) % 2 ^ 32
        let cx := f32Mul (f32Add gx (s.sigma (val 0) use)) st
        let cy := f32Mul (f32Add gy (s.sigma (val 1) (use + 1))) st
        let w := f32Mul (f32Mul (f16to32 (anc / 65536)) (s.expo (val 2) (use + 2))) half
        let h := f32Mul (f32Mul (f16to32 (anc % 65536)) (s.expo (val 3) (use + 3))) half
        (f32Sub cx w, f32Sub cy h, f32Add cx w, f32Add cy h)
      else
        (f32Mul (f32Sub (f32Add gx half) (val 0)) st, f32Mul (f32Sub (f32Add gy half) (val 1)) st,
         f32Mul (f32Add (f32Add gx half) (val 2)) st, f32Mul (f32Add (f32Add gy half) (val 3)) st)
    let mx (x : Nat) : Nat := to16 (f32Mul (f32Sub x (f16to32 (bits b.w1 63 48))) (f16to32 (bits b.w1 31 16)))
    let my (y : Nat) : Nat := to16 (f32Mul (f32Sub y (f16to32 (bits b.w1 47 32))) (f16to32 (bits b.w1 15 0)))
    some (leBytes 2 (mx x1) ++ leBytes 2 (my y1) ++ leBytes 2 (mx x2) ++ leBytes 2 (my y2) ++
      leBytes 2 (to16 best) ++ leBytes 2 cls ++ leBytes 4 idx)

/-- A candidate list: a 64-byte header and its records (Table XR-12). -/
def listBytes (dropped : Nat) (recs : List (List Nat)) : List Nat :=
  leBytes 4 recs.length ++ leBytes 4 dropped ++ List.replicate 56 0 ++ recs.flatMap id

def Cmd.eboxEmpty (c : Cmd) : Bool := decide (c.bGH = 0 ∨ c.bGW = 0 ∨ c.bCLASSES = 0 ∨ c.bANCH = 0 ∨ c.bMAX = 0)

def checkEboxHead (s : State) (n top : Nat) (c : Cmd) (w0 w1 w2 : W64) : Option (Nat × Nat) :=
  firstBad [
    s.refCheck n top (edgeSpaces false) w0 (c.bGH * c.bGW * c.bANCH * (4 + c.bCLASSES)),
    s.refCheck n top (edgeSpaces true) w1 (64 + 16 * c.bMAX),
    checkLocal top 64 64 w2,
    let b := s.boxParam n (bits w2 20 0)
    shape (decide (c.bANCH ≤ 8 ∧ b.stride ≠ 0) && clearOf b.w0 (maskOf 7 2) && decide (b.rest = 0))]

def execEbox (t : Nat) (s : State) : Out :=
  edgeHead t 0x51 s fun k c s =>
    let n := c.core
    let top := (s.core k).storeTop
    let w (i : Nat) : W64 := s.blockWord n (bits c.w1 20 0) i
    match checkEboxHead s n top c (w 0) (w 1) (w 2) with
    | some (r, d) => .next (s.cmdStop k n 6 c r d 4)
    | none =>
      if c.eboxEmpty then .next (s.edgeDone t c)
      else match s.anyHeld n [(w 0, c.bGH * c.bGW * c.bANCH * (4 + c.bCLASSES)), (w 1, 64 + 16 * c.bMAX)] with
      | some tm => .next (s.reachTeam tm)
      | none =>
        let s := s.traceBegin k n 6 c
        match s.rdWord n (w 0) (c.bGH * c.bGW * c.bANCH * (4 + c.bCLASSES)) with
        | .bad r d s' => .next (s'.cmdStop k n 6 c r d)
        | .ok inp s1 =>
          let b := s1.boxParam n (bits (w 2) 20 0)
          if s1.ueHit (storeBase n + bits (w 2) 20 0) 64 then
            .next ((s1.logStoreUe n (bits (w 2) 20 0)).cmdStop k n 6 c rUncorrectable (bits (w 2) 20 0))
          else
          let all := (List.range (c.bGH * c.bGW * c.bANCH)).filterMap fun i =>
            s1.boxOne c b inp (i / c.bANCH) (i % c.bANCH) (i * (4 + c.bCLASSES))
          let s2 := { s1 with fresh := s1.fresh + c.bGH * c.bGW * c.bANCH * (4 + c.bCLASSES) }
          match s2.wrWord n (w 1) 0 (listBytes (all.length - c.bMAX) (all.take c.bMAX)) with
          | .bad r d s' => .next (s'.cmdStop k n 6 c r d)
          | .ok _ s3 => .next (s3.edgeDone t c)

/-! ### ENMS (R157, R218) -/

/-- A candidate record: its input index and its bytes. -/
abbrev Cand := Nat × List Nat

def Cand.half (r : Cand) (i : Nat) : Nat := leNat ((r.2.drop (2 * i)).take 2)
def Cand.score (r : Cand) : Nat := r.half 4
def Cand.cls (r : Cand) : Nat := r.half 5

/-- Insert by descending score, after equals. -/
def insertCand (r : Cand) : List Cand → List Cand
  | [] => [r]
  | h :: t => if f32Gt (f16to32 r.score) (f16to32 h.score) then r :: h :: t else h :: insertCand r t

def sortCands : List Cand → List Cand → List Cand
  | [], acc => acc
  | r :: rs, acc => sortCands rs (insertCand r acc)

/-- Intersection over union in FP32; boxes without area have a free value. -/
def iou (a b : Cand) (choice : Nat) : Nat :=
  let v (r : Cand) (i : Nat) : Nat := f16to32 (r.half i)
  let span (lo hi : Nat) : Nat := let d := f32Sub hi lo; if f32Gt d 0 then d else 0
  let area (r : Cand) : Nat := f32Mul (f32Sub (v r 2) (v r 0)) (f32Sub (v r 3) (v r 1))
  let ix := span (f32s FV.maxNum (v a 0) (v b 0)) (f32s FV.minNum (v a 2) (v b 2))
  let iy := span (f32s FV.maxNum (v a 1) (v b 1)) (f32s FV.minNum (v a 3) (v b 3))
  let inter := f32Mul ix iy
  f32Div inter (f32Sub (f32Add (area a) (area b)) inter) choice

/-- The records kept, in order; `use` numbers the free values. -/
def keepCands (thr : Nat) (perClass : Bool) (maxOut : Nat) (free : Nat → Nat) : List Cand → List Cand → Nat → List Cand
  | [], kept, _ => kept
  | r :: rs, kept, use =>
    if maxOut ≤ kept.length then kept
    else
      let hit := kept.any fun q => (!perClass || decide (q.cls = r.cls)) && f32Gt (iou q r (free use)) thr
      keepCands thr perClass maxOut free rs (if hit then kept else kept ++ [r]) (use + 1)

/-- The input list is checked over its header and MAXIN records, whatever its COUNT. (DEDUCED, log 107) -/
def execEnms (t : Nat) (s : State) : Out :=
  edgeHead t 0x52 s fun k c s =>
    let n := c.core
    let top := (s.core k).storeTop
    let w (i : Nat) : W64 := s.blockWord n (bits c.w1 20 0) i
    match firstBad [s.refCheck n top (edgeSpaces false) (w 0) (64 + 16 * c.nMAXIN),
                    s.refCheck n top (edgeSpaces true) (w 1) (64 + 16 * c.bMAX)] with
    | some (r, d) => .next (s.cmdStop k n 6 c r d 4)
    | none =>
      if c.nMAXIN = 0 ∨ c.bMAX = 0 then .next (s.edgeDone t c)
      else match s.anyHeld n [(w 0, 64 + 16 * c.nMAXIN), (w 1, 64 + 16 * c.bMAX)] with
      | some tm => .next (s.reachTeam tm)
      | none =>
        let s := s.traceBegin k n 6 c
        match s.rdWord n (w 0) 64 with
        | .bad r d s' => .next (s'.cmdStop k n 6 c r d)
        | .ok hd s1 =>
          let m := min (leNat (hd.take 4)) c.nMAXIN
          match s1.rdWord n (w 0) (64 + 16 * m) with
          | .bad r d s' => .next (s'.cmdStop k n 6 c r d)
          | .ok inp s2 =>
            let cands : List Cand := (List.range m).map fun i => (i, (inp.drop (64 + 16 * i)).take 16)
            let kept := keepCands (f16to32 (bits c.w2 63 48)) (bit c.w2 47) c.bMAX
              (fun u => Config.freeNat (s2.fresh + u)) (sortCands cands []) [] 0
            let recs := kept.map fun r => r.2.take 12 ++ leBytes 4 r.1
            let s3 := { s2 with fresh := s2.fresh + m }
            match s3.wrWord n (w 1) 0 (listBytes (m - kept.length) recs) with
            | .bad r d s' => .next (s'.cmdStop k n 6 c r d)
            | .ok _ s4 => .next (s4.edgeDone t c)

/-! ### FFTC (R158, R219) -/

/-- A complex element: codes of the working format. -/
abbrev Cx := Nat × Nat

def cxAdd (f : FFmt) (a b : Cx) : Cx := (addIn f a.1 b.1, addIn f a.2 b.2)
def negIn (f : FFmt) (a : Nat) : Nat := fenc f (fdec f a).neg
def cxSub (f : FFmt) (a b : Cx) : Cx := (addIn f a.1 (negIn f b.1), addIn f a.2 (negIn f b.2))

/-- A complex product, its sums rounded apart or fused. -/
def cxMul (f : FFmt) (fused : Bool) (a b : Cx) : Cx :=
  if fused then
    (fmaIn f (negIn f a.2) b.2 (mulIn f a.1 b.1), fmaIn f a.2 b.1 (mulIn f a.1 b.2))
  else
    (addIn f (mulIn f a.1 b.1) (negIn f (mulIn f a.2 b.2)), addIn f (mulIn f a.1 b.2) (mulIn f a.2 b.1))

/-- The twiddle factor e^(-+2 pi i k / n) in the working format. -/
def twiddle (f : FFmt) (inv : Bool) (k n : Nat) : Cx :=
  let t := turn k (max 4 n)
  let t := if n = 2 then turn (2 * k) 4 else t
  (fenc f t.1, fenc f (if inv then t.2 else negZ t.2))

/-- Elements at even places, and at odd places. -/
def evens : List Cx → List Cx
  | a :: _ :: t => a :: evens t
  | l => l
def odds : List Cx → List Cx
  | _ :: b :: t => b :: odds t
  | _ => []

def zipCx (g : Nat → Cx → Cx → Cx) : Nat → List Cx → List Cx → List Cx
  | i, a :: as, b :: bs => g i a b :: zipCx g (i + 1) as bs
  | _, _, _ => []

/-- Decimation in time over `2 ^ d` points. -/
def fftDit (f : FFmt) (inv fused : Bool) : Nat → List Cx → List Cx
  | 0, l => l
  | d + 1, l =>
    let e := fftDit f inv fused d (evens l)
    let o := zipCx (fun i w _ => cxMul f fused (twiddle f inv i (2 ^ (d + 1))) w) 0
      (fftDit f inv fused d (odds l)) (List.replicate (2 ^ d) (0, 0))
    zipCx (fun _ a b => cxAdd f a b) 0 e o ++ zipCx (fun _ a b => cxSub f a b) 0 e o

/-- Elements of two lists in turn. -/
def weave : List Cx → List Cx → List Cx
  | a :: as, b :: bs => a :: b :: weave as bs
  | _, _ => []

/-- Decimation in frequency over `2 ^ d` points. -/
def fftDif (f : FFmt) (inv fused : Bool) : Nat → List Cx → List Cx
  | 0, l => l
  | d + 1, l =>
    let lo := l.take (2 ^ d)
    let hi := l.drop (2 ^ d)
    let e := zipCx (fun _ a b => cxAdd f a b) 0 lo hi
    let o := zipCx (fun i a b => cxMul f fused (cxSub f a b) (twiddle f inv i (2 ^ (d + 1)))) 0 lo hi
    weave (fftDif f inv fused d e) (fftDif f inv fused d o)

/-- A 1-D transform; the order and the fusing of its butterflies are open. -/
def fft1 (f : FFmt) (inv : Bool) (d : Nat) (l : List Cx) : List Cx :=
  let fused := decide (Config.fftWay % 2 = 1)
  if Config.fftWay / 2 % 2 = 0 then fftDit f inv fused d l else fftDif f inv fused d l

/-- Row `r` of `c` elements. -/
def cxRow (l : List Cx) (c r : Nat) : List Cx := (l.drop (r * c)).take c
def cxCol (l : List Cx) (c nr j : Nat) : List Cx := (List.range nr).map fun r => l.getD (r * c + j) (0, 0)

/-- A 2-D transform: along rows, then along columns. -/
def fft2 (f : FFmt) (inv : Bool) (da db : Nat) (l : List Cx) : List Cx :=
  let nr := 2 ^ da
  let nc := 2 ^ db
  let rows := (List.range nr).flatMap fun r => fft1 f inv db (cxRow l nc r)
  let cols := (List.range nc).flatMap fun j => fft1 f inv da (cxCol rows nc nr j)
  (List.range nr).flatMap fun r => cxCol cols nr nc r

def cxOf (h : Nat) : Nat → List Nat → List Cx
  | 0, _ => []
  | m + 1, b => (leNat (b.take h), leNat ((b.drop h).take h)) :: cxOf h m (b.drop (2 * h))

/-- One transform of an FFTC on its bytes. -/
def fftBytes (c : Cmd) (b : List Nat) : List Nat :=
  let h := if c.fHALF then 2 else 4
  let f := if c.fHALF then fmtF16 else fmtF32
  let l := cxOf h (c.fBytes / (2 * h)) b
  let out := if c.fTWOD then fft2 f c.fINV c.fLOGA c.fLOGB l else fft1 f c.fINV c.fLOGA l
  out.flatMap fun x => leBytes h x.1 ++ leBytes h x.2

/-- Transforms from number `i` on, and the fault that ended them. -/
def State.fftRun (s : State) (n : Nat) (c : Cmd) : Nat → Nat → State × Option (Nat × Nat)
  | 0, _ => (s, none)
  | m + 1, i =>
    match refOf c.w1, refOf c.w2 with
    | some rs, some rd =>
      (match s.rdRef n rs (i * c.fSSTEP) c.fBytes true with
       | .bad r d s' => (s', some (r, d))
       | .ok b s1 => match s1.wrRef n rd (i * c.fDSTEP) (fftBytes c b) true with
         | .bad r d s' => (s', some (r, d))
         | .ok _ s2 => s2.fftRun n c m (i + 1))
    | _, _ => (s, some (rIllegalShape, 0))

/-- The FFT engine has done all of a command but its completion. -/
def State.fftDone (s : State) (t : Nat) (c : Cmd) : State :=
  s.modTeam t fun y => { y with fq := dropEntry c y.fq, actF := some { cmd := c, full := true } }

def execFftc (t : Nat) (s : State) : Out :=
  if s.phase ≠ .up then .refused .cannotOccur
  else if s.fftPresent t = false then .refused .noSuchUnit
  else if (s.team t).actF.isSome then .refused .cannotOccur
  else match pickEntry s (s.team t).fq [] with
  | none => .refused .cannotOccur
  | some c =>
    let n := c.core
    match s.slotOf n with
    | none => .refused .noSuchUnit
    | some k =>
      match s.anyHeld n [(c.w1, reach c.fCOUNT c.fSSTEP c.fBytes), (c.w2, reach c.fCOUNT c.fDSTEP c.fBytes)] with
      | some tm => .next (s.reachTeam tm)
      | none =>
        match (s.traceBegin k n 7 c).fftRun n c c.fCOUNT 0 with
        | (s1, none) => .next (s1.fftDone t c)
        | (s1, some (r, d)) => .next (s1.cmdStop k n 7 c r d)

end Sys2Proof.Machine
end

