-- ==== Sys2Proof/Machine/Vector.lean ====
section
/-!
DEFINITION. The Vector engine: VCALL, bundles and their operations, landings, and VWIN (R159 to R180).
-/
namespace Sys2Proof.Machine

/-! ### Slots (Tables VK-1 to VK-3) -/

/-- The three slots of a bundle, and its reserved bits. -/
def slotOfBundle (b : BitVec 128) (i : Nat) : Nat := b.toNat / 2 ^ (86 - 42 * i) % 2 ^ 42
def bundleResv (b : BitVec 128) : Nat := b.toNat % 4

def fOp (x : Nat) : Nat := x / 2 ^ 34 % 256
def fVD (x : Nat) : Nat := x / 2 ^ 28 % 64
def fVA (x : Nat) : Nat := x / 2 ^ 22 % 64
def fVB (x : Nat) : Nat := x / 2 ^ 16 % 64
def fVC (x : Nat) : Nat := x / 2 ^ 10 % 64
def fMOD (x : Nat) : Nat := x % 1024
def fAREG (x : Nat) : Nat := x / 2 ^ 24 % 16
def fOFF (x : Nat) : Nat := x / 2 ^ 10 % 2 ^ 14
def fQN (x : Nat) : Nat := x / 2 ^ 23 % 32
def fCVT (x : Nat) : Nat := x / 2 ^ 20 % 8
def fAD (x : Nat) : Nat := x / 2 ^ 30 % 16
def fAS (x : Nat) : Nat := x / 2 ^ 26 % 16
def fIMM16 (x : Nat) : Nat := x / 2 ^ 10 % 2 ^ 16
def fN (x : Nat) : Nat := x / 2 ^ 15 % 2 ^ 11

/-- The slot that takes an opcode; `none` where Table VK-3 assigns none. -/
def opSlot (op : Nat) : Option Nat :=
  if op ∈ [0x01, 0x02, 0x03, 0x04, 0x08, 0x09, 0x0A, 0x10, 0x11, 0x18, 0x19, 0x1A] then some 0
  else if (0x20 ≤ op ∧ op ≤ 0x2D) ∨ (0x30 ≤ op ∧ op ≤ 0x34) ∨ op ∈ [0x38, 0x40, 0x41, 0x44, 0x45] then some 1
  else if (0x50 ≤ op ∧ op ≤ 0x57) ∨ (0x60 ≤ op ∧ op ≤ 0x64) ∨ op ∈ [0x68, 0x69, 0x70, 0x71, 0x72] then some 2
  else none

/-- Operands: VA alone, VA and VB, or VA, VB and VC. -/
def usesVB (op : Nat) : Bool :=
  decide (op < 0x2C) || decide (op = 0x30 ∨ op = 0x31 ∨ op = 0x32 ∨ op = 0x54 ∨ op = 0x56 ∨ op = 0x68)
def usesVC (op : Nat) : Bool := decide (op ∈ [0x04, 0x0A, 0x11, 0x1A, 0x2B])

/-- The bits of a slot that its operation uses (R163). -/
def opMask (op : Nat) : Nat :=
  let opc := maskOf 41 34
  let v := opc + maskOf 33 22 + (if usesVB op then maskOf 21 16 else 0) + (if usesVC op then maskOf 15 10 else 0)
  if op = 0x00 then opc
  else if op = 0x2D then opc + maskOf 33 28 + maskOf 25 22
  else if op = 0x40 ∨ op = 0x41 then opc + maskOf 33 10
  else if op = 0x44 ∨ op = 0x45 then opc + maskOf 33 20
  else if op = 0x70 then opc + maskOf 33 30 + maskOf 25 15
  else if op = 0x71 then opc + maskOf 33 10
  else if op = 0x72 then opc
  else if op ∈ [0x08, 0x09, 0x0A] then v + 1
  else if op = 0x2A ∨ op = 0x32 then v + 3
  else if op = 0x38 then v + maskOf 9 2
  else if op = 0x69 then v + maskOf 5 0
  else v

/-- A format code that VCVT takes: those of Table XR-9 but ACC, and FP64. -/
def cvtCode (c : Nat) : Bool := decide (c ≤ 9)

/-- A slot is well formed for its place: assigned, in its slot, no reserved bit set. -/
def slotOk (i x : Nat) : Bool :=
  let op := fOp x
  (decide (op = 0) || decide (opSlot op = some i)) &&
  decide (BitVec.ofNat 42 x &&& ~~~(BitVec.ofNat 42 (opMask op)) = 0#42) &&
  (decide (op ≠ 0x38) || (cvtCode (fMOD x / 64) && cvtCode (fMOD x / 4 % 16)))

/-- L of Table VK-3; 0 where nothing is written to a register. -/
def opLat (op : Nat) : Nat :=
  if op ≤ 0x0A then 4
  else if op ≤ 0x11 then 3
  else if op ≤ 0x1A then 6
  else if op ≤ 0x2D then 1
  else if op ≤ 0x38 then 2
  else if op = 0x40 then 5
  else if op = 0x41 then 2
  else if op = 0x44 then 3
  else if op = 0x45 then 2
  else if op ≤ 0x51 then 8
  else if op ≤ 0x53 then 12
  else if op ≤ 0x55 then 20
  else if op ≤ 0x57 then 40
  else if op = 0x61 then 10
  else if op ≤ 0x64 then 6
  else if op ≤ 0x69 then 2
  else 1

def opInterval (op : Nat) : Nat :=
  if 0x18 ≤ op ∧ op ≤ 0x1A then 2
  else if op = 0x52 ∨ op = 0x53 then 4
  else if op = 0x54 ∨ op = 0x55 then 16
  else if op = 0x56 ∨ op = 0x57 then 32
  else 1

/-- The unit an operation of a slot uses (R167). -/
def opUnit (slot op : Nat) : Nat :=
  if slot < 2 then slot
  else if op = 0x52 ∨ op = 0x53 then 2
  else if 0x54 ≤ op ∧ op ≤ 0x57 then 3
  else 4

/-- Registers: V registers 0 to 63, A registers from 64 on. -/
def opReads (x : Nat) : List Nat :=
  let op := fOp x
  if op = 0 ∨ op = 0x44 ∨ op = 0x72 then []
  else if op = 0x2D then [64 + fVA x % 16]
  else if op = 0x40 then [64 + fAREG x]
  else if op = 0x41 then [fVD x, 64 + fAREG x]
  else if op = 0x45 then [fVD x]
  else if op = 0x70 then [64 + fAD x]
  else if op = 0x71 then [64 + fAS x]
  else [fVA x] ++ (if usesVB op then [fVB x] else []) ++ (if usesVC op then [fVC x] else [])

def opWrites (x : Nat) : Option Nat :=
  let op := fOp x
  if op = 0 ∨ op = 0x41 ∨ op = 0x45 ∨ op = 0x70 ∨ op = 0x72 then none
  else if op = 0x71 then some (64 + fAD x)
  else some (fVD x)

/-! ### Lanes -/

def vreg0 : Nat → W32 := fun _ => 0#32

def Vec.lane (v : Vec) (r i : Nat) : Nat := (tget vreg0 v.v (64 * r + i)).toNat
def Vec.lanes (v : Vec) (r : Nat) : List Nat := (List.range 64).map (v.lane r)
def Vec.areg (v : Vec) (r : Nat) : Nat := (tget vreg0 v.a r).toNat

/-- FP64 element `j` of a register. -/
def Vec.dbl (v : Vec) (r j : Nat) : Nat := v.lane r (2 * j) + 2 ^ 32 * v.lane r (2 * j + 1)

/-- Lanes of FP64 elements. -/
def dblLanes (l : List Nat) : List Nat := l.flatMap fun d => [d % 2 ^ 32, d / 2 ^ 32 % 2 ^ 32]

/-- An operation on the two packed halves of lanes. -/
def onHalves (g : Nat → Nat → Nat → Nat) (a b c : Nat) : Nat :=
  g (a % 65536) (b % 65536) (c % 65536) + 65536 * g (a / 65536) (b / 65536) (c / 65536)

def allOnes (b : Bool) : Nat := if b then 2 ^ 32 - 1 else 0

/-- VCMP's condition from an ordering: EQ, NE, LT, LE; unordered operands are only NE. -/
def cmpHolds (cond : Nat) (o : Option Ordering) : Bool :=
  match cond, o with
  | 0, some .eq => true
  | 1, some .eq => false
  | 1, _ => true
  | 2, some .lt => true
  | 3, some .lt => true
  | 3, some .eq => true
  | _, _ => false

/-- One element converted between the formats of VCVT (R184, R185). -/
def cvtElem (src dst code : Nat) : Nat :=
  let v := elemValue src code
  if fmtIsInt dst then
    intCode (if dst = 7 then 32 else fmtBits dst)
      (if fmtIsInt src then (clampInt (fmtBits dst) (signedOf (fmtBits src) code)).1 else fToInt (fmtBits dst) v)
  else if dst = 8 ∨ dst = 9 then fenc (fmtOf dst) v
  else (fnarrow (fmtOf dst) v).1

/-- An element code placed in a lane: integers sign-extended, others in the low bits (R160). -/
def placeLane (fmt code : Nat) : Nat :=
  if fmtIsInt fmt then intCode 32 (signedOf (fmtBits fmt) code) else code

/-- The element of a lane. -/
def laneElem (fmt lane : Nat) : Nat := lane % 2 ^ fmtBits fmt

def vcvt (v : Vec) (r src dst : Nat) : List Nat :=
  if src = 9 ∧ dst = 9 then dblLanes ((List.range 32).map fun j => cvtElem 9 9 (v.dbl r j))
  else if src = 9 then
    (List.range 32).map (fun j => placeLane dst (cvtElem 9 dst (v.dbl r j))) ++ List.replicate 32 0
  else if dst = 9 then dblLanes ((List.range 32).map fun j => cvtElem src 9 (laneElem src (v.lane r j)))
  else (v.lanes r).map fun l => placeLane dst (cvtElem src dst (laneElem src l))

/-- The reciprocal, the square roots, the logarithm and the quotient. Infinities and NaNs follow R183; where a finite
operand has no stated result (a zero divisor, the root of a negative value, the logarithm of a value that is not
positive) a free code stands. (DESIGN CHOICE, log 17) -/
def rcpOf (a choice : Nat) : Nat :=
  let x := fdec fmtF32 a
  if x.isZero then freeCode fmtF32 choice else withinOf 1 x (FV.div 60 (ofInt 1) x) choice

/-- A square root within `p` units in the last place; free for a negative operand (R164). (DESIGN CHOICE, log 17) -/
def sqrtIn (f : FFmt) (p a choice : Nat) : Nat :=
  let x := fdec f a
  if x.finite && x.isNeg && !x.isZero then freeCode f choice else fenc f (FV.sqrt p x)

/-- VRSQRT (R164). (DESIGN CHOICE, log 17) -/
def rsqrtOf (a choice : Nat) : Nat :=
  let x := fdec fmtF32 a
  if x.isZero || (x.finite && x.isNeg) then freeCode fmtF32 choice
  else withinOf 1 x (FV.div 60 (ofInt 1) (FV.sqrt 60 x)) choice

/-- VLOG2 (R164). (DESIGN CHOICE, log 17) -/
def log2Of (a choice : Nat) : Nat :=
  match fdec fmtF32 a with
  | .nan => fmtF32.nanMag
  | .inf neg => if neg then fmtF32.nanMag else 0x7F800000
  | .fin neg m e => if m = 0 ∨ neg = true then freeCode fmtF32 choice else within 2 (log2Pos m e) choice

/-- A quotient in a format; free where the divisor is zero (R164). (DESIGN CHOICE, log 17) -/
def divIn (f : FFmt) (p a b choice : Nat) : Nat :=
  if (fdec f b).isZero && (fdec f a).finite then freeCode f choice else fenc f (FV.div p (fdec f a) (fdec f b))

/-- A reduction, to every lane. -/
def toAll (v : Nat) : List Nat := List.replicate 64 v

def s32 (n : Nat) : Int := signedOf 32 n

/-- The lanes that an operation of the V form writes. `free i` is the free value of lane `i`. (DEDUCED, log 18) -/
def vecOp (v : Vec) (free : Nat → Nat) (x : Nat) : List Nat :=
  let op := fOp x
  let a (i : Nat) : Nat := v.lane (fVA x) i
  let b (i : Nat) : Nat := v.lane (fVB x) i
  let c (i : Nat) : Nat := v.lane (fVC x) i
  let each (g : Nat → Nat) : List Nat := (List.range 64).map g
  let eachD (g : Nat → Nat) : List Nat := dblLanes ((List.range 32).map g)
  let da (j : Nat) : Nat := v.dbl (fVA x) j
  let db (j : Nat) : Nat := v.dbl (fVB x) j
  let dc (j : Nat) : Nat := v.dbl (fVC x) j
  let hf := if fMOD x % 2 = 0 then fmtF16 else fmtBF16
  match op with
  | 0x01 => each fun i => f32Add (a i) (b i)
  | 0x02 => each fun i => f32Sub (a i) (b i)
  | 0x03 => each fun i => f32Mul (a i) (b i)
  | 0x04 => each fun i => fmaIn fmtF32 (a i) (b i) (c i)
  | 0x08 => each fun i => onHalves (fun p q _ => addIn hf p q) (a i) (b i) 0
  | 0x09 => each fun i => onHalves (fun p q _ => mulIn hf p q) (a i) (b i) 0
  | 0x0A => each fun i => onHalves (fun p q r => fmaIn hf p q r) (a i) (b i) (c i)
  | 0x10 => each fun i => a i * b i % 2 ^ 32
  | 0x11 => each fun i => (a i * b i + c i) % 2 ^ 32
  | 0x18 => eachD fun j => addIn fmtF64 (da j) (db j)
  | 0x19 => eachD fun j => mulIn fmtF64 (da j) (db j)
  | 0x1A => eachD fun j => fmaIn fmtF64 (da j) (db j) (dc j)
  | 0x20 => each fun i => (a i + b i) % 2 ^ 32
  | 0x21 => each fun i => (a i + (2 ^ 32 - b i)) % 2 ^ 32
  | 0x22 => each fun i => (BitVec.ofNat 32 (a i) &&& BitVec.ofNat 32 (b i)).toNat
  | 0x23 => each fun i => (BitVec.ofNat 32 (a i) ||| BitVec.ofNat 32 (b i)).toNat
  | 0x24 => each fun i => (BitVec.ofNat 32 (a i) ^^^ BitVec.ofNat 32 (b i)).toNat
  | 0x25 => each fun i => a i * 2 ^ (b i % 32) % 2 ^ 32
  | 0x26 => each fun i => a i / 2 ^ (b i % 32)
  | 0x27 => each fun i => intCode 32 (s32 (a i) / (2 : Int) ^ (b i % 32))
  | 0x28 => each fun i => if s32 (a i) < s32 (b i) then a i else b i
  | 0x29 => each fun i => if s32 (a i) < s32 (b i) then b i else a i
  | 0x2A => each fun i => allOnes (cmpHolds (fMOD x % 4) (some (compare (s32 (a i)) (s32 (b i)))))
  | 0x2B => each fun i => if c i ≠ 0 then a i else b i
  | 0x2C => each a
  | 0x2D => toAll (v.areg (fVA x % 16))
  | 0x30 => each fun i => f32s FV.minNum (a i) (b i)
  | 0x31 => each fun i => f32s FV.maxNum (a i) (b i)
  | 0x32 => each fun i => allOnes (cmpHolds (fMOD x % 4) ((fdec fmtF32 (a i)).cmp (fdec fmtF32 (b i))))
  | 0x33 => each fun i => fenc fmtF32 (fdec fmtF32 (a i)).abs
  | 0x34 => each fun i => fenc fmtF32 (fdec fmtF32 (a i)).neg
  | 0x38 => vcvt v (fVA x) (fMOD x / 64) (fMOD x / 4 % 16)
  | 0x50 => each fun i => withinOf 2 (fdec fmtF32 (a i)) (exp2V (fdec fmtF32 (a i))) (free i)
  | 0x51 => each fun i => log2Of (a i) (free i)
  | 0x52 => each fun i => rcpOf (a i) (free i)
  | 0x53 => each fun i => rsqrtOf (a i) (free i)
  | 0x54 => each fun i => divIn fmtF32 60 (a i) (b i) (free i)
  | 0x55 => each fun i => sqrtIn fmtF32 60 (a i) (free i)
  | 0x56 => eachD fun j => divIn fmtF64 120 (da j) (db j) (free j)
  | 0x57 => eachD fun j => sqrtIn fmtF64 120 (da j) (free j)
  | 0x60 => toAll ((v.lanes (fVA x)).foldl (· + ·) 0 % 2 ^ 32)
  | 0x61 => toAll (treeSum f32Add 6 (v.lanes (fVA x)))
  | 0x62 => toAll ((v.lanes (fVA x)).foldl (fun m l => if s32 m < s32 l then l else m) (2 ^ 31))
  | 0x63 => toAll ((v.lanes (fVA x)).tail.foldl (f32s FV.maxNum) (a 0))
  | 0x64 => toAll ((v.lanes (fVA x)).tail.foldl (f32s FV.minNum) (a 0))
  | 0x68 => each fun i => a (b i % 64)
  | _ => each fun i => a ((i + fMOD x % 64) % 64)

/-! ### Landing (R165, R166) -/

def setLanes (t : Tbl W32) (base : Nat) : List W32 → Tbl W32
  | [] => t
  | v :: vs => setLanes (tset vreg0 t base v) (base + 1) vs

/-- One flight lands. -/
def State.land (s : State) (k n : Nat) : Landing → State
  | .vreg r lanes => s.modCore k fun c => { c with vec := { c.vec with v := setLanes c.vec.v (64 * r) lanes } }
  | .areg r v => s.modCore k fun c => { c with vec := { c.vec with a := tset vreg0 c.vec.a r v } }
  | .store a bytes => s.wrStore n a bytes
  | .push q bytes => s.commit n k q bytes

/-- The register a flight writes, as `opWrites` numbers it. -/
def Flight.reg (f : Flight) : Option Nat :=
  match f.eff with
  | .vreg r _ => some r
  | .areg r _ => some (64 + r)
  | _ => none

/-- Flights due by a cycle land in order of their cycles, then of issue; `fl` stands in issue order. -/
def insertFlight (f : Flight) : List Flight → List Flight
  | [] => [f]
  | g :: t => if f.land < g.land then f :: g :: t else g :: insertFlight f t

def landOrder (fl : List Flight) : List Flight := fl.foldl (fun acc f => insertFlight f acc) []

/-- Two of the flights write one register in one cycle. -/
def collides : List Flight → Bool
  | [] => false
  | f :: t => (t.any fun g => decide (g.land = f.land) && f.reg.isSome && decide (g.reg = f.reg)) || collides t

def State.landAll (s : State) (k n : Nat) : List Flight → State
  | [] => s
  | f :: t => (s.land k n f.eff).landAll k n t

/-- Land every flight that `due` picks out. -/
def State.landSome (s : State) (k n : Nat) (due : Flight → Bool) : State :=
  let fl := (s.core k).vec.flights
  let now := landOrder (fl.filter due)
  let s1 := if collides now then s.raise (F.VEC_STATUS_COLLIDE k) else s
  let s2 := s1.landAll k n now
  s2.modCore k fun c => { c with vec := { c.vec with flights := c.vec.flights.filter fun f => !due f } }

/-- Land every flight due in or before cycle `t`. -/
def State.landDue (s : State) (k n t : Nat) : State := s.landSome k n fun f => decide (f.land ≤ t)

/-- A register is written at the start of its cycle, so that a bundle of that cycle reads it (R165). A row is written and
an element committed at the end of theirs, seen from the next cycle on (R104, R253). (DEDUCED, log 16) -/
def Flight.started (f : Flight) (cyc : Nat) : Bool := f.reg.isSome && decide (f.land ≤ cyc)
/-- A row or an element is there from the cycle after its landing. (DEDUCED, log 16) -/
def Flight.finished (f : Flight) (cyc : Nat) : Bool := !f.reg.isSome && decide (f.land ≤ cyc)

/-! ### Faults (R175, Table VK-9) -/

def vkDetail (areg : Bool) (reg kind slot bundle : Nat) : Nat :=
  (if areg then 2 ^ 24 else 0) + reg % 64 * 2 ^ 18 + kind * 2 ^ 16 + slot * 2 ^ 14 + bundle % 2048

/-- The kernel faults: its bundle does not issue; what has issued lands later. -/
def State.vfault (s : State) (k n : Nat) (cmd : Cmd) (reason detail : Nat) : State :=
  (((s.modCore k fun c => { c with actV := none, vec := { c.vec with ended := true, loops := [] } }).setF
    (F.VEC_STATUS_RUNNING k) 0).setF (F.VEC_STATUS_HELD k) 0).cmdStop k n 3 cmd reason detail

/-! ### The checker (R168) -/

/-- A write not yet landed: register and landing cycle. -/
abbrev Pend := Nat × Nat

def pends (fl : List Flight) : List Pend := fl.filterMap fun f => f.reg.map fun r => (r, f.land)

/-- The first hazard of slot `i`: its kind and its register. -/
def hazard (cyc i x : Nat) (busy : Bool) (ps : List Pend) : Option (Nat × Nat) :=
  match (opReads x).find? fun r => ps.any fun p => decide (p.1 = r ∧ cyc < p.2) with
  | some r => some (0, r)
  | none =>
    match opWrites x with
    | some w =>
      if ps.any fun p => decide (p.1 = w ∧ p.2 = cyc + opLat (fOp x)) then some (1, w)
      else if ps.any fun p => decide (p.1 = w ∧ cyc + opLat (fOp x) < p.2) then some (2, w)
      else if busy then some (3, 0) else none
    | none => if busy ∧ i < 3 then some (3, 0) else none

def busy0 : Nat → Nat := fun _ => 0

/-- The unit of an operation is within an earlier one's interval. -/
def Vec.unitBusy (v : Vec) (i x : Nat) : Bool :=
  decide (fOp x ≠ 0 ∧ v.cyc < tget busy0 v.busy (opUnit i (fOp x)))

/-- The first hazard of a bundle: kind, register, slot. -/
def bundleHazard (v : Vec) : Nat → List Nat → List Pend → Option (Nat × Nat × Nat)
  | _, [], _ => none
  | i, x :: xs, ps =>
    match hazard v.cyc i x (v.unitBusy i x) ps with
    | some (kind, r) => some (kind, r, i)
    | none =>
      bundleHazard v (i + 1) xs (match opWrites x with
        | some w => (w, v.cyc + opLat (fOp x)) :: ps
        | none => ps)

/-! ### Queue operations (R170) -/

/-- Element bytes of a CVT code; `none` where it faults. -/
def cvtBytes (cvt : Nat) : Option Nat :=
  match cvt with
  | 0 => some 256
  | 1 => some 64
  | 2 => some 64
  | 3 => some 128
  | 4 => some 128
  | 5 => some 128
  | _ => none

/-- The lanes of a popped element. -/
def popLanes (cvt : Nat) (bytes : List Nat) : List Nat :=
  let v := leNat bytes
  match cvt with
  | 0 => unpackCodes 32 64 v
  | 1 => (unpackCodes 8 64 v).map fun x => intCode 32 (signedOf 8 x)
  | 2 => unpackCodes 8 64 v
  | 3 => (unpackCodes 16 64 v).map fun x => intCode 32 (signedOf 16 x)
  | 4 => (unpackCodes 16 64 v).map fun x => fenc fmtF32 (fdec fmtF16 x)
  | _ => (unpackCodes 16 64 v).map fun x => fenc fmtF32 (fdec fmtBF16 x)

def satU8 (i : Int) : Nat := if i < 0 then 0 else if i > 255 then 255 else i.toNat

/-- The bytes of a pushed register. -/
def pushBytes (cvt : Nat) (l : List Nat) : List Nat :=
  match cvt with
  | 0 => leBytes 256 (packCodes 32 l)
  | 1 => leBytes 64 (packCodes 8 (l.map fun x => intCode 8 (clampInt 8 (s32 x)).1))
  | 2 => leBytes 64 (packCodes 8 (l.map fun x => satU8 (s32 x)))
  | 3 => leBytes 128 (packCodes 16 (l.map fun x => intCode 16 (clampInt 16 (s32 x)).1))
  | 4 => leBytes 128 (packCodes 16 (l.map fun x => (fnarrow fmtF16 (fdec fmtF32 x)).1))
  | _ => leBytes 128 (packCodes 16 (l.map fun x => (fnarrow fmtBF16 (fdec fmtF32 x)).1))

/-- The store address that a memory or queue operation reads. -/
def State.slot1Addr (s : State) (k : Nat) (c : Core) (x : Nat) : Nat :=
  if fOp x = 0x40 then (let a := c.vec.areg (fAREG x) + 256 * fOFF x; a - a % 64)
  else (let q := (s.core k).queue (fQN x); q.base + q.head)

/-- The check of a memory or queue operation when its bundle would issue. -/
def State.slot1Check (s : State) (k n : Nat) (c : Core) (x : Nat) : Option Nat :=
  let op := fOp x
  if op = 0x40 ∨ op = 0x41 then
    let a := c.vec.areg (fAREG x) + 256 * fOFF x
    if c.storeTop < a - a % 64 + 256 then some rLengthBounds
    else if op = 0x40 ∧ s.ueHit (storeBase n + (a - a % 64)) 256 then some rUncorrectable else none
  else if op = 0x44 ∨ op = 0x45 then
    match cvtBytes (fCVT x) with
    | none => some rIllegalShape
    | some b =>
      let q := (s.core k).queue (fQN x)
      if q.depth = 0 ∨ q.zc ∨ esizeBytes q.esize ≠ b then some rIllegalShape
      else if c.ringOk q = false then some rLengthBounds
      else if op = 0x44 ∧ 0 < q.count ∧ s.ueHit (storeBase n + q.base + q.head) b then some rUncorrectable else none
  else none

/-- The bundle holds: its queue operation cannot proceed (R171). -/
def Core.holds (c : Core) (x : Nat) : Bool :=
  if fOp x = 0x44 then decide ((c.queue (fQN x)).count = 0)
  else if fOp x = 0x45 then !(c.queue (fQN x)).hasRoom
  else false

/-! ### Loops (R172) -/

/-- The bundle after `b`, and the loop levels left. -/
def loopNext (b : Nat) : List VLoop → Nat × List VLoop
  | [] => (b + 1, [])
  | l :: ls => if l.stop ≠ b then (b + 1, l :: ls)
               else if l.left = 0 then loopNext b ls else (l.start, { l with left := l.left - 1 } :: ls)

/-- The check of a VLOOP in bundle `b`. -/
def vloopCheck (c : Core) (x b : Nat) : Option Nat :=
  if fN x = 0 ∨ 2 ≤ c.vec.loops.length then some rIllegalShape
  else if (match c.vec.loops with
      | l :: _ => decide (l.stop < b + fN x)
      | [] => false) then some rIllegalShape
  else if c.nBund ≤ b + fN x then some rLengthBounds
  else none

/-! ### Issue of a bundle -/

/-- Carry out one slot of a bundle issued in cycle `cyc`; the values it reads are those of `v`, the
registers before the bundle. -/
def State.slotIssue (s : State) (k n i x : Nat) (v : Vec) : State :=
  let op := fOp x
  if op = 0 then s
  else if v.unitBusy i x then s.raise (F.VEC_STATUS_UNIT_BUSY k)
  else
    let c := s.core k
    let add (s : State) (e : Landing) : State := s.modCore k fun c =>
      { c with vec := { c.vec with flights := c.vec.flights ++ [{ land := v.cyc + opLat op, eff := e }],
                                   busy := tset busy0 c.vec.busy (opUnit i op) (v.cyc + opInterval op) } }
    let w (l : List Nat) : List W32 := l.map (BitVec.ofNat 32)
    if op = 0x40 then
      let a := v.areg (fAREG x) + 256 * fOFF x
      add s (.vreg (fVD x) (w (unpackCodes 32 64 (s.ldN (storeBase n + (a - a % 64)) 256))))
    else if op = 0x41 then
      let a := v.areg (fAREG x) + 256 * fOFF x
      add s (.store (a - a % 64) (leBytes 256 (packCodes 32 (v.lanes (fVD x)))))
    else if op = 0x44 then
      match s.pop n k (fQN x) with
      | some (b, s1) => add s1 (.vreg (fVD x) (w (popLanes (fCVT x) b)))
      | none => s
    else if op = 0x45 then
      let b := pushBytes (fCVT x) (v.lanes (fVD x))
      add (s.reserve k (fQN x) b.length) (.push (fQN x) b)
    else if op = 0x71 then
      add s (.areg (fAD x) (BitVec.ofInt 32 ((v.areg (fAS x) : Int) + signedOf 16 (fIMM16 x))))
    else if op = 0x70 then
      let cnt := v.areg (fAD x)
      if cnt = 0 then s
      else s.setCore k { c with vec := { c.vec with
        loops := { start := v.bundle + 1, stop := v.bundle + fN x, left := cnt - 1 } :: c.vec.loops } }
    else if op = 0x72 then s.setCore k { c with vec := { c.vec with ended := true } }
    else
      let free (j : Nat) : Nat := Config.freeNat (s.fresh + j)
      add { s with fresh := s.fresh + 64 } (.vreg (fVD x) (w (vecOp v free x)))

/-- The bundle after this one: a VLOOP of count 0 skips its body. -/
def nextBundle (v : Vec) (x2 : Nat) (loops : List VLoop) : Nat × List VLoop :=
  if fOp x2 = 0x70 then
    (if v.areg (fAD x2) = 0 then loopNext (v.bundle + fN x2) loops else (v.bundle + 1, loops))
  else loopNext v.bundle loops

/-- The checker runs on a core (R168). -/
def State.checkerOn (s : State) (k : Nat) : Bool :=
  s.flag (F.VEC_CTRL_CHECK_EN k) || (match (s.core k).job with
    | some j => decide ((s.job j).guardMode = 2)
    | none => false)

/-- The first slot of a bundle that is not well formed. -/
def badSlot : Nat → List Nat → Option Nat
  | _, [] => none
  | i, x :: xs => if slotOk i x then badSlot (i + 1) xs else some i

/-- A debug event of a core (R493): traced, and a stop where EVT_HALT is set. -/
def State.debugEvent (s : State) (k n engine tag cnt : Nat) : State :=
  let s1 := s.trace (k / 9) n engine 10 tag cnt
  if s.flag (F.DBG_CORE_CTRL_EVT_HALT k) then s1.debugStop k 5 0 0 else s1

/-- The bundle at the counter issues, holds or faults. (DEDUCED, log 16) -/
def State.bundleTry (s : State) (k n : Nat) (cmd : Cmd) : State :=
  let c := s.core k
  let v := c.vec
  let b := v.bundle
  if c.nBund ≤ b then s.vfault k n cmd rLengthBounds (vkDetail false 0 0 0 b)
  else if c.bad.any (fun e => e.1 == 4 && (e.2 == b || decide (65536 ≤ e.2))) then
    { s.rasUe 4 n b with errPlace := (0xFFFF, n * 2 ^ 32) }.vfault k n cmd rUncorrectable (vkDetail false 0 0 0 b)
  else
    let w := tget (fun _ => 0#128) c.vim b
    let xs := [slotOfBundle w 0, slotOfBundle w 1, slotOfBundle w 2]
    let x1 := slotOfBundle w 1
    let x2 := slotOfBundle w 2
    match (if bundleResv w ≠ 0 then some 0 else badSlot 0 xs) with
    | some i => s.vfault k n cmd rIllegalShape (vkDetail false 0 0 i b)
    | none =>
      match (if fOp x2 = 0x70 then vloopCheck c x2 b else none) with
      | some r => s.vfault k n cmd r (vkDetail false 0 0 2 b)
      | none =>
        match s.slot1Check k n c x1 with
        | some r =>
          let addrReg := decide (r = rLengthBounds ∧ (fOp x1 = 0x40 ∨ fOp x1 = 0x41))
          (if r = rUncorrectable then s.logStoreUe n (s.slot1Addr k c x1) else s).vfault k n cmd r
            (vkDetail addrReg (if addrReg then fAREG x1 else 0) 0 1 b)
        | none =>
          match (if s.checkerOn k then bundleHazard v 0 xs (pends v.flights) else none) with
          | some (kind, r, i) =>
            (s.debugEvent k n 3 cmd.tag cmd.cnt).vfault k n cmd rSchedHazard (vkDetail (decide (64 ≤ r)) r kind i b)
          | none =>
            if c.holds x1 then (s.addF (F.VEC_HELD_CYC_CYCLES k) 1).setF (F.VEC_STATUS_HELD k) 1
            else
              let s1 := ((s.slotIssue k n 0 xs[0]! v).slotIssue k n 1 x1 v).slotIssue k n 2 x2 v
              let s2 := (s1.addF (F.VEC_BUNDLES_COUNT k) 1).setF (F.VEC_STATUS_HELD k) 0
              s2.modCore k fun c =>
                let (nb, ls) := nextBundle v x2 c.vec.loops
                { c with vec := { c.vec with bundle := nb, loops := ls, cyc := v.cyc + 1 } }

/-- One cycle of a kernel that issues: what lands in it, its bundle, and what is written at its end. In a held cycle, which
counts for nothing in flight, the engine's cycle stands and nothing is written at its end (R171). -/
def State.bundleStep (s : State) (k n : Nat) (cmd : Cmd) : State :=
  let cyc := (s.core k).vec.cyc
  let t := (s.landSome k n (·.started cyc)).bundleTry k n cmd
  if (t.core k).vec.cyc = cyc ∧ (t.core k).vec.ended = false then t else t.landSome k n (·.finished cyc)

/-- One cycle of the vector engine: what is due lands, and the bundle at the counter issues, holds or faults (R160 to R173).
(DEDUCED, log 16) (DEDUCED, log 20) -/
def execVectorBundle (n : Nat) (s : State) : Out :=
  onCore n s fun k c =>
    match c.actV with
    | some a =>
      if a.cmd.opc ≠ 0x70 ∨ c.vec.ended then .refused .cannotOccur else .next (s.bundleStep k n a.cmd)
    | none => .refused .cannotOccur

/-- The earliest flight due lands; once no bundle issues any more, its cycle is reached by waiting. -/
def execVectorResultLand (n : Nat) (s : State) : Out :=
  onCore n s fun k c =>
    let cyc := c.vec.cyc
    if c.vec.ended then
      match landOrder c.vec.flights with
      | [] => .refused .cannotOccur
      | f :: _ => .next ((s.landDue k n f.land).modCore k fun c => { c with vec := { c.vec with cyc := max cyc f.land } })
    else
      match landOrder (c.vec.flights.filter (·.started cyc)) with
      | [] => .refused .cannotOccur
      | f :: _ => .next (s.landSome k n fun g => g.started cyc && decide (g.land ≤ f.land))

/-! ### VCALL (R174) -/

def setA (v : Vec) (i : Nat) (w : W64) : Vec :=
  { v with a := tset vreg0 (tset vreg0 v.a i (w.extractLsb' 0 32)) (i + 1) (w.extractLsb' 32 32) }

def execVcall (n : Nat) (s : State) : Out :=
  onCore n s fun k c =>
    match c.actV, c.vq with
    | none, cmd :: rest =>
      if cmd.opc ≠ 0x70 then .refused .otherInstruction
      else if s.mayBegin k cmd = false ∨ c.vec.flights ≠ [] then .next s
      else
        let v := setA (setA (setA c.vec 0 cmd.w1) 2 cmd.w2) 4 cmd.w3
        .next (((s.traceBegin k n 3 cmd).modCore k fun c => { c with
          vq := rest, actV := some { cmd := cmd },
          vec := { v with bundle := cmd.vEntry, loops := [], cyc := 0, busy := [], ended := false } }).setF
          (F.VEC_STATUS_RUNNING k) 1)
    | _, _ => .refused .cannotOccur

/-! ### VWIN (R176 to R179) -/

/-- The parameter block of VWIN: words 0 to 3, and whether words 4 to 7 are 0. -/
structure WinParam where
  w0 : W64
  w1 : W64
  w2 : W64
  w3 : W64
  rest : Bool

def State.winParam (s : State) (n off : Nat) : WinParam :=
  { w0 := s.blockWord n off 0, w1 := s.blockWord n off 1, w2 := s.blockWord n off 2, w3 := s.blockWord n off 3,
    rest := decide (s.ldN (storeBase n + off + 32) 32 = 0) }

def WinParam.waddr (p : WinParam) : Nat := bits p.w2 52 32
def WinParam.azp (p : WinParam) : Int := signedOf 16 (bits p.w2 31 16)
def WinParam.h (p : WinParam) : Nat := bits p.w3 63 52
def WinParam.w (p : WinParam) : Nat := bits p.w3 51 40
def WinParam.c (p : WinParam) : Nat := bits p.w3 39 32
def WinParam.gw (p : WinParam) : Nat := bits p.w3 31 28
def WinParam.k (p : WinParam) : Nat := 3 + 2 * bits p.w3 27 26
def WinParam.stride (p : WinParam) : Nat := 1 + bits p.w3 25 25
def WinParam.dil (p : WinParam) : Nat := 1 + bits p.w3 23 20
def WinParam.pt (p : WinParam) : Nat := bits p.w3 19 16
def WinParam.pb (p : WinParam) : Nat := bits p.w3 15 12
def WinParam.pl (p : WinParam) : Nat := bits p.w3 11 8
def WinParam.pr (p : WinParam) : Nat := bits p.w3 7 4
def WinParam.oh (p : WinParam) : Nat := outDim p.h p.pt p.pb p.dil p.k p.stride
def WinParam.ow (p : WinParam) : Nat := outDim p.w p.pl p.pr p.dil p.k p.stride
def WinParam.empty (p : WinParam) : Bool := decide (p.h = 0 ∨ p.w = 0 ∨ p.c = 0)
def WinParam.inOff (p : WinParam) : Nat := bits p.w0 20 0

/-- Where VWIN's rows go: a buffer, or a queue of the core. -/
def WinParam.out (p : WinParam) : Option (Nat ⊕ Nat) :=
  match refOf p.w1 with
  | some (.loc off) => some (.inl off)
  | some (.queue none q) => some (.inr q)
  | _ => none

/-- The checks at the VQ head. An H, W or C of 0 passes through every one like any other, by R111. -/
def State.checkVwinHead (s : State) (n top : Nat) (p : WinParam) : Option (Nat × Nat) :=
  firstBad [
    shape (clearOf p.w2 (maskOf 63 53 + maskOf 15 0) && clearOf p.w3 (maskOf 24 24 + maskOf 3 0) && p.rest),
    shape (decide (p.gw ≠ 0 ∧ p.c % p.gw = 0 ∧ p.c ≤ 64)),
    shape (decide (bits p.w3 27 26 ≠ 3 ∧ 1 ≤ p.oh ∧ 1 ≤ p.ow)),
    match refOf p.w0 with
    | some (.loc off) => below top off (p.h * p.w * p.c)
    | some _ => some (rPermission, 0)
    | none => shape false,
    match p.out with
    | some (.inl off) => below top off (p.oh * p.ow * 256)
    | some (.inr q) => s.queueCheck n q 256 false
    | none => (match refOf p.w1 with
      | some _ => some (rPermission, 0)
      | none => shape false),
    below top p.waddr (p.k * p.k * p.c * p.gw)]

/-- Lane `o` of the output row at a position (R177). -/
def State.winLane (s : State) (n : Nat) (p : WinParam) (oy ox o : Nat) : Nat :=
  let g := p.gw * (o / p.gw)
  let tap (ky kx j : Nat) : Int :=
    let y : Int := (oy * p.stride + ky * p.dil : Nat) - (p.pt : Int)
    let x : Int := (ox * p.stride + kx * p.dil : Nat) - (p.pl : Int)
    if y < 0 ∨ x < 0 ∨ (p.h : Int) ≤ y ∨ (p.w : Int) ≤ x then 0
    else
      let px := s.ld8 (storeBase n + p.inOff + (y.toNat * p.w + x.toNat) * p.c + g + j)
      let wt := s.ld8 (storeBase n + p.waddr + ((ky * p.k + kx) * p.c + o) * p.gw + j)
      signedOf 16 (intCode 16 (signedOf 8 px - p.azp)) * signedOf 8 wt
  word (sumInt ((List.range p.k).flatMap fun ky => (List.range p.k).flatMap fun kx => (List.range p.gw).map (tap ky kx)))

def State.winRow (s : State) (n : Nat) (p : WinParam) (i : Nat) : List Nat :=
  leBytes 256 (packCodes 32 ((List.range 64).map fun o => if o < p.c then s.winLane n p (i / p.ow) (i % p.ow) o else 0))

/-- What an output position reads from the store: the pixels of its taps that lie in the input, and the weights. -/
def WinParam.reads (p : WinParam) (i : Nat) : List (Nat × Nat) :=
  ((List.range p.k).flatMap fun ky => (List.range p.k).filterMap fun kx =>
    let y : Int := (i / p.ow * p.stride + ky * p.dil : Nat) - (p.pt : Int)
    let x : Int := (i % p.ow * p.stride + kx * p.dil : Nat) - (p.pl : Int)
    if y < 0 ∨ x < 0 ∨ (p.h : Int) ≤ y ∨ (p.w : Int) ≤ x then none
    else some (p.inOff + (y.toNat * p.w + x.toNat) * p.c, p.c)) ++ [(p.waddr, p.k * p.k * p.c * p.gw)]

/-- Output rows until the queue is full or all are written, or an uncorrectable error in what is read (R31) or a queue
beyond STORE_TOP (R100) faults the command. -/
def State.winRows (n : Nat) (p : WinParam) : Nat → State → Nat → State × Nat × Option (Nat × Nat)
  | 0, s, i => (s, i, none)
  | f + 1, s, i =>
    if p.oh * p.ow ≤ i then (s, i, none)
    else match s.readUe n (p.reads i), p.out with
    | some off, _ => (s.logStoreUe n off, i, some (rUncorrectable, off))
    | none, some (.inl off) => State.winRows n p f (s.wrStore n (off + 256 * i) (s.winRow n p i)) (i + 1)
    | none, some (.inr q) =>
      if s.roomAt n q = false then (s, i, none)
      else if s.ringBad n q then (s, i, some (rLengthBounds, q))
      else State.winRows n p f (s.pushAt n q (s.winRow n p i)) (i + 1)
    | none, none => (s, i, none)

/-- Cycles of R178. -/
def WinParam.cycles (p : WinParam) : Nat := 16 + p.oh * (2 + p.ow * ((p.gw * p.k * p.k + 3) / 4))

def State.vwinRun (s : State) (k n held : Nat) (a : Active) : State :=
  let p := s.winParam n (bits a.cmd.w1 20 0)
  let s0 := (s.addF (F.VEC_HELD_CYC_CYCLES k) held).addF (F.VEC_WIN_CYC_CYCLES k) held
  let (s1, i, bad) := State.winRows n p (p.oh * p.ow) s0 a.done
  match bad with
  | some (r, d) => s1.vfault k n a.cmd r d
  | none =>
  let full := decide (p.oh * p.ow ≤ i)
  let s2 := if full then s1.addF (F.VEC_WIN_CYC_CYCLES k) p.cycles else s1
  (s2.modCore k fun c => { c with actV := some { a with done := i, full := full } }).setF
    (F.VEC_STATUS_HELD k) (if full then 0 else 1)

/-- VWIN begins or goes on; `held` is the cycles that a full queue held it (R171). -/
def execVwin (n held : Nat) (s : State) : Out :=
  onCore n s fun k c =>
    match c.actV with
    | some a =>
      if a.cmd.opc ≠ 0x71 then .refused .otherInstruction
      else if a.full then .next s else .next (s.vwinRun k n held a)
    | none =>
      match c.vq with
      | [] => .refused .cannotOccur
      | cmd :: rest =>
        if cmd.opc ≠ 0x71 then .refused .otherInstruction
        else if s.mayBegin k cmd = false ∨ c.vec.flights ≠ [] then .next s
        else
          let off := bits cmd.w1 20 0
          let p := s.winParam n off
          if s.ueHit (storeBase n + off) 64 then .next ((s.logStoreUe n off).cmdStop k n 3 cmd rUncorrectable off)
          else match s.checkVwinHead n c.storeTop p with
          | some (r, d) => .next (s.cmdStop k n 3 cmd r d 4)
          | none =>
            let s1 := ((s.traceBegin k n 3 cmd).modCore k fun c => { c with vq := rest }).setF (F.VEC_STATUS_RUNNING k) 1
            if p.empty then .next (s1.modCore k fun c => { c with actV := some { cmd := cmd, full := true } })
            else .next (s1.vwinRun k n held { cmd := cmd })

end Sys2Proof.Machine
end

