-- ==== Sys2Proof/Machine/Complete.lean ====
section
/-!
DEFINITION. COMMAND_COMPLETE: an engine command's last write commits, and then its signal is applied
(R112, R145 to R149, R173).
-/
namespace Sys2Proof.Machine

/-! ### Matrix commands -/

/-- The command moved rows. -/
def Cmd.matrixRuns (c : Cmd) : Bool :=
  (decide (c.opc = 0x10) && !c.mmulEmpty) || (decide (c.opc = 0x12) && decide (c.amask ≠ 0 ∧ c.mRows ≠ 0))

/-- The escalation record of Table XR-8. -/
def escRecord (x : CrSlot) (mode sat : Nat) : Nat :=
  let count := min sat (2 ^ 32 - 1)
  let exceeded := x.on 7 && decide (x.satlim < count) && decide (mode ≠ 0)
  (if exceeded ∧ mode = 2 then 2 ^ 63 else 0) + (if exceeded then 2 ^ 62 else 0) + mode * 2 ^ 60 + count

def escExceeded (x : CrSlot) (mode sat : Nat) : Bool :=
  x.on 7 && decide (x.satlim < min sat (2 ^ 32 - 1)) && decide (mode ≠ 0)

/-- The escalation mode under which slot `k`'s job runs (R200 to R202). -/
def State.escMode (s : State) (k : Nat) : Nat :=
  match (s.core k).job with
  | some j => (s.job j).escMode
  | none => 0

/-- A FIRST that has begun since names the handle again and keeps its tiles (R72). (DEDUCED, log 22) -/
def Core.retaken (c : Core) (h : Nat) : Bool :=
  (c.landM ++ c.actM.toList).any fun a => decide (a.cmd.opc = 0x10 ∧ a.cmd.pass = 0 ∧ a.cmd.handle = h) && a.cmd.matrixRuns

/-- What the completion of a matrix command does beside its signal. -/
def State.matrixComplete (s : State) (k n : Nat) (a : Active) : State :=
  let cmd := a.cmd
  if cmd.matrixRuns = false then s
  else
    let x := (s.core k).cr cmd.xslot
    let mode := s.escMode k
    let s1 := if cmd.esc = 0 then s else s.wrStore n cmd.ereca (leBytes 8 (escRecord x mode a.sat))
    let s2 := if cmd.esc ≠ 0 ∧ escExceeded x mode a.sat then s1.markJob k fun j => { j with exceeded := true } else s1
    let s3 := if cmd.esc = 2 then s2.markJob k fun j => { j with escalated := true } else s2
    if (cmd.opc = 0x10 ∧ cmd.pass = 2) ∨ cmd.opc = 0x12 then
      s3.modCore k fun c => if c.retaken cmd.handle then c else c.setTiles cmd.handle []
    else s3

/-- Trace the completion and apply the signal. -/
def State.finish (s : State) (k n source : Nat) (cmd : Cmd) : State :=
  ((s.modCore k fun c => c.markDone cmd.cnt).trace (k / 9) n source 2 cmd.tag cmd.cnt).signalCmd k n source cmd

/-! ### The others -/

def slotOfBuf (b : List Nat) : CrSlot :=
  let w (i : Nat) : W64 := BitVec.ofNat 64 (b.getD i 0)
  { w0 := w 0, w1 := w 1, w2 := w 2, w3 := w 3, w4 := w 4 }

/-- A KV command completes: a KAPPEND counts in its group, and marks its job where tokens of the group
were refused (R243, R245). -/
def State.kvComplete (s : State) (k n : Nat) (cmd : Cmd) : State :=
  if cmd.opc ≠ 0x41 ∨ cmd.kcount = 0 then s
  else
    let p := s.partOf n
    let c := s.kvRead p cmd.kctx
    let s1 := if c.pend ∧ c.pstored < c.pcount then s.markJob k fun j => { j with kvRefused := true } else s
    s1.kvAppended p cmd.kctx

/-- The first landed command of a list completes. -/
def completeCore (e : Eng) (n : Nat) (s : State) : Out :=
  onCore n s fun k c =>
    match e with
    | .mq => match c.landM with
      | [] => .refused .cannotOccur
      | a :: rest => .next (((s.modCore k fun c => { c with landM := rest }).matrixComplete k n a).finish k n 1 a.cmd)
    | .xq => match c.actX with
      | none => .refused .cannotOccur
      | some a => .next ((s.modCore k fun c =>
          { c with
            actX := none, crs := tset cr0 c.crs (bits a.cmd.w0 17 16) (slotOfBuf a.buf),
            bad := c.bad.filter fun e => e ≠ (9, 65536 + bits a.cmd.w0 17 16) }).finish k n 2 a.cmd)
    | .vq => match c.actV with
      | none => .refused .cannotOccur
      | some a =>
        if a.full ∨ (a.cmd.opc = 0x70 ∧ c.vec.ended ∧ c.vec.flights = []) then
          .next (((s.modCore k fun c => { c with actV := none }).setF (F.VEC_STATUS_RUNNING k) 0).finish k n 3 a.cmd)
        else .refused .cannotOccur
    | .dq => match c.landD with
      | [] => .refused .cannotOccur
      | a :: rest => .next ((s.modCore k fun c => { c with landD := rest }).finish k n 4 a.cmd)
    | .kq => match c.actK with
      | none => .refused .cannotOccur
      | some a =>
        if a.full then .next (((s.modCore k fun c => { c with actK := none }).kvComplete k n a.cmd).finish k n 5 a.cmd)
        else .refused .cannotOccur
    | _ => .refused .noSuchUnit

/-- A Team engine's command completes. -/
def completeTeam (e : Eng) (t : Nat) (s : State) : Out :=
  if s.phase ≠ .up then .refused .cannotOccur
  else match e with
  | .eq => match (s.team t).actE with
    | none => .refused .cannotOccur
    | some a => match s.slotOf a.cmd.core with
      | none => .next (s.modTeam t fun x => { x with actE := none })
      | some k => .next ((s.modTeam t fun x => { x with actE := none }).finish k a.cmd.core 6 a.cmd)
  | .fq => match (s.team t).actF with
    | none => .refused .cannotOccur
    | some a => match s.slotOf a.cmd.core with
      | none => .next (s.modTeam t fun x => { x with actF := none })
      | some k => .next ((s.modTeam t fun x => { x with actF := none }).finish k a.cmd.core 7 a.cmd)
  | _ => .refused .noSuchUnit

/-- COMMAND_COMPLETE of engine `e` on logical core `u`, or on Team `u` for EQ and FQ. (DEDUCED, log 22) -/
def execCommandComplete (u : Nat) (e : Eng) (s : State) : Out :=
  if e = .eq ∨ e = .fq then completeTeam e u s else completeCore e u s

end Sys2Proof.Machine
end

