-- ==== Sys2Proof/Machine/Stab.lean ====
section
/-!
DEFINITION. Objects: loading, placement, migration and loss (R268 to R279), the Tally commands (R258,
R259) and the GDDR6 channels and scrubs (R263 to R267, R460). What a tick edge applies stands here as an
operation of its own; Machine/TickEdge.lean calls it.
-/
namespace Sys2Proof.Machine

/-! ### Who may write (R412) -/

/-- An accepted write does `f`; another is denied. (DEDUCED, log 8) -/
def hostWrite (port : Port) (s : State) (f : State → State) : Out :=
  if s.phase ≠ .up then unreached s else .next (if portHost port then f s else s.denied port)

/-! ### Tally commands (R259) -/

/-- Tally commands of a Team that await the snapshot. -/
def State.tallyQueued (s : State) (t : Nat) : Nat :=
  (s.events.filter fun e => match e with
    | .tally u _ _ _ _ => u == t
    | _ => false).length

/-- The write of TALLY_CMD on a Team that is ON. -/
def State.tallyPut (s : State) (t op c : Nat) : State :=
  if s.tallyQueued t < 64 then
    s.latch (.tally t op c (s.getF (F.TALLY_ARG0_EPOCH t)) (s.getF (F.TALLY_ARG1_VALUE t)))
  else s.raise (F.TALLY_STATUS_CMD_REJECT t)

/-- A write within a Team's window: a Team that is not ON holds it and wakes (R84). (DEDUCED, log 28) -/
def State.teamWrite (s : State) (t off : Nat) (v : W32) (f : State → State) : State :=
  if s.teamPresent t = false then s
  else if s.teamOn t then f (s.reachTeam t)
  else (s.reachTeam t).modTeam t fun x => { x with heldCfg := x.heldCfg ++ [(off, v)] }

def tallyCmdWord (op c : Nat) : W32 := BitVec.ofNat 32 (op * 2 ^ 30 + c % 256)

def execArm (port : Port) (t c : Nat) (s : State) : Out :=
  hostWrite port s fun s => s.teamWrite t 0x208 (tallyCmdWord 1 c) fun s => s.tallyPut t 1 (c % 256)
def execRewind (port : Port) (t c : Nat) (s : State) : Out :=
  hostWrite port s fun s => s.teamWrite t 0x208 (tallyCmdWord 2 c) fun s => s.tallyPut t 2 (c % 256)
def execDisarm (port : Port) (t c : Nat) (s : State) : Out :=
  hostWrite port s fun s => s.teamWrite t 0x208 (tallyCmdWord 3 c) fun s => s.tallyPut t 3 (c % 256)

/-- What ARM, REWIND or DISARM makes of a counter; `none` where it is rejected. -/
def TallyCtr.command (y : TallyCtr) (op a0 a1 : Nat) : Option TallyCtr :=
  match op with
  | 1 => if a0 = 0 then none else some { epoch := a0, limit := a1 }
  | 2 => if y.epoch = 0 ∨ y.limit < a1 then none else some { y with next := a1 }
  | 3 => some { y with epoch := 0 }
  | _ => some y

/-- Apply a Tally command at the snapshot. -/
def State.tallyApply (s0 : State) (t op c a0 a1 : Nat) : State :=
  let s := s0.modTeam t fun x => { x with busySeen := true }
  match (tget tally0 (s.team t).tally c).command op a0 a1 with
  | none => s.raise (F.TALLY_STATUS_CMD_REJECT t)
  | some y => s.modTeam t fun x => { x with tally := tset tally0 x.tally c y }

/-! ### Space -/

/-- Bytes of segment `i` of an object (R269). -/
def Obj.segLen (x : Obj) (i : Nat) : Nat := min segSize (x.size - i * segSize)
def segCount (size : Nat) : Nat := (size + segSize - 1) / segSize
def ceilTo (n u : Nat) : Nat := (n + u - 1) / u * u

/-- The loaded objects of a partition, with their IDs, in ascending order. -/
def State.objsOf (s : State) (p : Nat) : List (Nat × Obj) :=
  s.objs.filterMap fun e => if e.1 / 65536 = p then some (e.1 % 65536, e.2) else none

/-- Segments with their numbers. -/
def numbered {α : Type} : Nat → List α → List (Nat × α)
  | _, [] => []
  | i, a :: l => (i, a) :: numbered (i + 1) l

/-- The homes of an object's segments as extents. -/
def Obj.homes (x : Obj) : List (Nat × Nat) :=
  (numbered 0 x.segs).filterMap fun g => g.2.home.map fun a => (a, ceilTo (x.segLen g.1) 0x10000)

/-- The Pool extents of an object: placed, and reserved by promotions in progress. -/
def Obj.poolUse (x : Obj) : List (Nat × Nat) :=
  (numbered 0 x.segs).flatMap fun g =>
    let u := ceilTo (x.segLen g.1) 0x1000
    (match g.2.pool with
     | some a => [(a, u)]
     | none => []) ++
    (match g.2.move with
     | some (some a) => [(a, u)]
     | _ => [])

def sumSizes : List (Nat × Nat) → Nat
  | [] => 0
  | e :: es => e.2 + sumSizes es

/-- An extent is free of all used ones. -/
def fits (used : List (Nat × Nat)) (a len : Nat) : Bool := used.all fun u => decide (u.1 + u.2 ≤ a ∨ a + len ≤ u.1)

/-- The lowest free place of `len` bytes in a range: at its start, or where a used extent ends.
(DESIGN CHOICE, log 32) -/
def spot (used : List (Nat × Nat)) (lo hi len : Nat) : Option Nat :=
  ((lo :: used.map fun u => u.1 + u.2).filter fun a => decide (lo ≤ a ∧ a + len ≤ hi) && fits used a len).foldl
    (fun m a => match m with
      | none => some a
      | some b => some (min a b)) none

def State.arenaBase (s : State) (p : Nat) : Nat := s.getF (F.STAB_P_ARENA_BASE_MIB p) * 0x100000
def State.arenaSize (s : State) (p : Nat) : Nat := s.getF (F.STAB_P_ARENA_SIZE_MIB p) * 0x100000
/-- The bytes of the segment map, rounded up to 1 MiB (R269). -/
def State.segMap (s : State) (p : Nat) : Nat := ceilTo (s.arenaSize p / 8192) 0x100000

def copy0 : Nat → Nat × Nat := fun _ => (0, 0)

/-- What is used of a partition's arena beyond the segment map. -/
def State.arenaUsed (s : State) (p : Nat) : List (Nat × Nat) :=
  let c := tget copy0 s.copies p
  (if c.2 = 0 then [] else [(c.1, ceilTo c.2 0x10000)]) ++ (s.objsOf p).flatMap fun e => e.2.homes

/-- What STAB_P_ARENA_USED counts (R95, R269): homes, program copy and segment map. -/
def State.arenaShown (s : State) (p : Nat) : Nat := sumSizes (s.arenaUsed p) + s.segMap p

/-- A place for a home of `len` bytes: within one MiB of the arena in a working pair. (DESIGN CHOICE, log 32) -/
def State.homeSpot (s : State) (p : Nat) (used : List (Nat × Nat)) (len : Nat) : Option Nat :=
  let lo := s.arenaBase p
  (List.range (s.arenaSize p / 0x100000)).findSome? fun m =>
    let a := lo + m * 0x100000
    if a < lo + s.segMap p ∨ s.pairOk (gddrPair a) = false then none
    else spot (used.filter fun u => decide (a < u.1 + u.2 ∧ u.1 < a + 0x100000)) a (a + 0x100000) (ceilTo len 0x10000)

/-- Homes for segments `i` on; `none` where one does not fit. -/
def State.homesFor (s : State) (p : Nat) (x : Obj) : Nat → Nat → List (Nat × Nat) → Option (List Nat × List (Nat × Nat))
  | 0, _, used => some ([], used)
  | n + 1, i, used => match s.homeSpot p used (x.segLen i) with
    | none => none
    | some a => match s.homesFor p x n (i + 1) ((a, ceilTo (x.segLen i) 0x10000) :: used) with
      | none => none
      | some (l, u) => some (a :: l, u)

/-- Pool space used in the whole device. -/
def State.poolUsed (s : State) : List (Nat × Nat) := s.objs.flatMap fun e => e.2.poolUse

/-- Bytes of a partition's Pool share in use: placed and reserved. -/
def State.shareUsed (s : State) (p : Nat) : Nat := sumSizes ((s.objsOf p).flatMap fun e => e.2.poolUse)
def State.shareSize (s : State) (p : Nat) : Nat := s.getF (F.STAB_P_POOL_SHARE_UNITS p) * 0x1000

/-- Slice `t` can take data. -/
def State.sliceOk (s : State) (t : Nat) : Bool :=
  s.teamPresent t && !(s.fence 2 t).closed && !(s.fence 1 t).closed

def partTeams (x : Part) : List Nat := (List.range 8).filter fun t => decide (x.teams / 2 ^ t % 2 = 1)

/-- The place in the Pool for `len` bytes: slices of Teams not gated first, then preferred Teams, then the
slice with the most free space, then the lower number (R274). (DESIGN CHOICE, log 32) -/
def State.sliceSpot (s : State) (p teams : Nat) (used : List (Nat × Nat)) (len : Nat) : Option Nat :=
  let cand := (partTeams (tget (fun _ => ({} : Part)) s.parts p)).filterMap fun t =>
    if s.sliceOk t = false then none
    else
      let u := used.filter fun e => decide (poolBase t ≤ e.1 ∧ e.1 < poolBase (t + 1))
      (spot u (poolBase t) (poolBase (t + 1)) (ceilTo len 0x1000)).map fun a =>
        ((if s.teamOn t then 0 else 2 ^ 26) + (if teams / 2 ^ t % 2 = 1 then 0 else 2 ^ 25) + sumSizes u, a)
  (cand.foldl (fun m e => match m with
    | none => some e
    | some b => if e.1 < b.1 then some e else some b) (none : Option (Nat × Nat))).map (·.2)

/-- Pool places for segments `i` on. -/
def State.slicesFor (s : State) (p : Nat) (x : Obj) : Nat → Nat → List (Nat × Nat) → Option (List Nat × List (Nat × Nat))
  | 0, _, used => some ([], used)
  | n + 1, i, used => match s.sliceSpot p x.teams used (x.segLen i) with
    | none => none
    | some a => match s.slicesFor p x n (i + 1) ((a, ceilTo (x.segLen i) 0x1000) :: used) with
      | none => none
      | some (l, u) => some (a :: l, u)

/-! ### The object table (R268) -/

def State.objEntry (s : State) (p id : Nat) : Nat :=
  s.getF (F.STAB_P_OBJ_BASE_HI_ADDR p) * 2 ^ 32 + s.getF (F.STAB_P_OBJ_BASE_LO_ADDR p) * 32 + 32 * id

def State.objWord (s : State) (p id w : Nat) : W64 := BitVec.ofNat 64 (s.ldN (s.objEntry p id + 8 * w) 8)

/-- Word 2 of an entry: STATE, LOST and SEGIDX. -/
def State.setEntry (s : State) (p id stage : Nat) (lost : Bool) : State :=
  s.stN (s.objEntry p id + 16) 8 (stage * 2 ^ 62 + (if lost then 2 ^ 61 else 0) + (s.objWord p id 2).toNat % 2 ^ 32)

/-- The object that an entry declares; `none` where the entry is refused. (DEDUCED, log 30) -/
def State.declared (s : State) (p id : Nat) : Option Obj :=
  let w0 := s.objWord p id 0
  let w1 := s.objWord p id 1
  if s.getF (F.STAB_P_OBJ_COUNT_COUNT p) ≤ id ∨ bit w0 63 = false ∨ bits w0 39 0 = 0 ∨ 4 ≤ bits w0 61 59 ∨
      clearOf w0 (maskOf 56 40) = false ∨ clearOf w1 (maskOf 55 0) = false then none
  else some { stage := 1, size := bits w0 39 0, pin := bit w0 62, hint := bits w0 61 59, ro := bit w0 57 || bit w0 58,
              teams := bits w1 63 56 }

/-! ### LOAD, FREE and CLEAR_LOST (R270) -/

/-- Place one object: its homes and, when pinned, its Pool extents; `none` where they do not fit. (DEDUCED, log 31) -/
def State.placeObj (s : State) (p id : Nat) (x : Obj) : Option State :=
  let n := segCount x.size
  if s.arenaSize p < x.size then none
  else match s.homesFor p x n 0 (s.arenaUsed p) with
  | none => none
  | some (hs, _) =>
    match (if x.pin then s.slicesFor p x n 0 s.poolUsed else some ([], [])) with
    | none => none
    | some (ps, _) =>
      if x.pin ∧ s.shareSize p < s.shareUsed p + (List.range n).foldl
          (fun m i => m + ceilTo (x.segLen i) 0x1000) 0 then none
      else
        let segs := (List.range n).map fun i =>
          { home := some (hs.getD i 0), pool := if x.pin then ps[i]? else none : Seg }
        let s1 := s.stN (s.objEntry p id + 16) 8 (2 ^ 62 + s.free % 2 ^ 32)
        some ((s1.stN (s.objEntry p id + 24) 8 0).used1.setObj p id { x with segs := segs })

/-- Place the objects of a range in ascending ID order. -/
def State.placeAll (s : State) (p : Nat) : List Nat → Option State
  | [] => some s
  | id :: ids => match s.declared p id with
    | none => none
    | some x => match s.placeObj p id x with
      | none => none
      | some s' => s'.placeAll p ids

def State.stabResult (s : State) (state reason : Nat) : State :=
  (s.setF F.STAB_RESULT_STATE state).setF F.STAB_RESULT_REASON reason

/-- The reason that refuses a LOAD, or the machine with every object placed and filling. (DEDUCED, log 31) -/
def State.loadObjs (s : State) (p first count : Nat) : Except Nat State :=
  let ids := (List.range count).map (first + ·)
  if (s.parts.any fun e => e.1 == p && e.2.live) = false then .error rPermission
  else if ids.any fun id => (s.declared p id).isNone then .error rIllegalShape
  else if ids.any fun id => decide ((s.obj p id).stage ≠ 0) then .error rPermission
  else if 65536 < s.objs.length + count then .error rStoreOverflow
  else match s.placeAll p ids with
  | none => .error rStoreOverflow
  | some s' => .ok s'

/-- CMDCNT of every core, by logical number. -/
def State.cmdCounts (s : State) : List (Nat × Nat) :=
  (List.range 64).filterMap fun n => (s.slotOf n).map fun k => (n, (s.core k).cmdcnt)

/-- A FREE of an object whose import still copies: the import ends REFUSED with HOST_ABORT, and no key is held
(R431). -/
def State.dropImport (s : State) (p id : Nat) : State :=
  match s.assay.copying with
  | some m =>
    if m.part = p ∧ m.obj = id then
      let s1 := { s with assay := { s.assay with copying := none } }
      (s1.setF F.MB_STATUS_STATE 3).setF F.MB_STATUS_REASON 0x22
    else s
  | none => s

def State.freeObj (s0 : State) (p id : Nat) : State :=
  let s := s0.dropImport p id
  let x := s.obj p id
  if x.stage = 1 ∨ x.stage = 2 then
    (s.setEntry p id 3 x.lost).setObj p id { x with stage := 3, freeing := s.cmdCounts }
  else s

def State.clearLost (s : State) (p id : Nat) : State :=
  let x := s.obj p id
  if x.lost then (s.setEntry p id x.stage false).setObj p id { x with lost := false } else s

/-- Apply a STAB_CMD at the snapshot. (DEDUCED, log 31) -/
def State.stabApply (s : State) (op p first count : Nat) : State :=
  if count = 0 then s
  else
    let ids := (List.range count).map (first + ·)
    match op with
    | 1 => (match s.loadObjs p first count with
      | .error r => { s.stabResult 3 r with stabLoad := none }
      | .ok s' => { s'.stabResult 1 0 with stabLoad := some (p, first, count) })
    | 2 => { (ids.foldl (fun t id => t.freeObj p id) s).stabResult 2 0 with stabLoad := none }
    | 3 => { (ids.foldl (fun t id => t.clearLost p id) s).stabResult 2 0 with stabLoad := none }
    | _ => s

def State.stabQueued (s : State) : Nat :=
  (s.events.filter fun e => match e with
    | .stab _ _ _ _ => true
    | _ => false).length

/-- The write of STAB_CMD. -/
def stabCmd (port : Port) (op p : Nat) (s : State) : Out :=
  hostWrite port s fun s =>
    if s.stabQueued < 16 then
      s.latch (.stab op (p % 8) (s.getF F.STAB_CMD_ARG0_FIRST) (s.getF F.STAB_CMD_ARG1_COUNT))
    else s.raise F.STAB_STATUS_CMD_REJECT

def execStabLoad (port : Port) (p : Nat) (s : State) : Out := stabCmd port 1 p s
def execStabFree (port : Port) (p : Nat) (s : State) : Out := stabCmd port 2 p s
def execClearLost (port : Port) (p : Nat) (s : State) : Out := stabCmd port 3 p s

/-- STAB_QUERY keeps what it names; STAB_QHEAT and STAB_QLOC report it. -/
def execStabQuery (port : Port) (p id : Nat) (s : State) : Out :=
  hostWrite port s fun s => (s.setF F.STAB_QUERY_PART p).setF F.STAB_QUERY_ID id

/-- The Teams whose slices an object's Pool extents lie in. -/
def Obj.poolTeams (x : Obj) : List Nat := x.poolUse.filterMap fun e => poolTeam e.1

/-- The Pool requests of the Stabling engine reach Teams (R82, R84). -/
def State.reachSlices (s : State) (ts : List Nat) : State := ts.foldl State.reachSlice s

/-- The zero-fill of an object completes; it wakes a gated Team whose slice it fills, and waits for it (R84). -/
def execLoadFillComplete (p id : Nat) (s : State) : Out :=
  if s.phase ≠ .up then .refused .cannotOccur
  else
    let x := s.obj p id
    if x.stage = 1 ∧ x.filled = false ∧ x.bound = false then
      match x.poolTeams.find? fun t => !s.teamOn t with
      | some t => .next (s.reachSlice t)
      | none =>
        let zero (t : State) (e : Nat × Nat) : State := (t.zeroMem e.1 (e.1 + e.2)).ueClear e.1 e.2
        .next (((x.homes ++ x.poolUse).foldl zero (s.reachSlices x.poolTeams)).setObj p id { x with filled := true })
    else .refused .cannotOccur

/-! ### Release and loading at an edge -/

/-- A command of a core with a count at or below one is in flight. -/
def State.inFlight (s : State) (n cnt : Nat) : Bool :=
  match s.slotOf n with
  | none => false
  | some k =>
    let c := s.core k
    let t := s.team (k / 9)
    let old (x : Cmd) : Bool := x.core == n && decide (x.cnt ≤ cnt)
    let oldA (a : Option Active) : Bool := match a with
      | some a => old a.cmd
      | none => false
    (c.mq ++ c.xq ++ c.vq ++ c.dq ++ c.kq ++ t.eq ++ t.fq).any old || oldA c.actM || oldA c.actX || oldA c.actV ||
      oldA c.actD || oldA c.actK || oldA t.actE || oldA t.actF || (c.landM ++ c.landD).any fun a => old a.cmd

/-- A filled object becomes loaded; a freed one is released when no older command is in flight. -/
def State.edgeObj (s : State) (p id : Nat) : State :=
  let x := s.obj p id
  if x.stage = 1 ∧ x.filled then (s.setEntry p id 2 x.lost).setObj p id { x with stage := 2 }
  else if x.stage = 3 ∧ (x.freeing.any fun e => s.inFlight e.1 e.2) = false then
    let s1 := if x.bound then { s with keys := tset key0 s.keys x.keySlot {} } else s
    (s1.stN (s.objEntry p id + 16) 8 0).setObj p id {}
  else s

/-- Every key of a table, as it stands. -/
def State.objKeys (s : State) : List (Nat × Nat) := s.objs.map fun e => (e.1 / 65536, e.1 % 65536)

def State.edgeObjs (s : State) : State :=
  let s1 := s.objKeys.foldl (fun t e => t.edgeObj e.1 e.2) s
  match s1.stabLoad with
  | none => s1
  | some (p, f, n) =>
    if (List.range n).any fun i => decide ((s1.obj p (f + i)).stage = 1) then s1
    else { s1.stabResult 2 0 with stabLoad := none }

/-! ### Migration (R272 to R276) -/

/-- A segment whose copy has completed takes its new location. -/
def State.switchSeg (s : State) (x : Obj) (i : Nat) (g : Seg) : State × Seg :=
  if g.copied = false then (s, g)
  else match g.move, g.home, g.pool with
  | some (some a), some h, none =>
    let b : List Nat := if x.bound then
        (match s.boundBlocks x (i * segSize / 4096) ((x.segLen i + 4095) / 4096) with
         | .ok l => l.take (x.segLen i)
         | .error _ => [])
      else s.ldBytes h (x.segLen i)
    ((s.stBytes a b).ueClear a (ceilTo (x.segLen i) 64), { g with pool := some a, move := none, copied := false })
  | some none, some h, some a =>
    (if x.ro then s else (s.stBytes h (s.ldBytes a (x.segLen i))).ueClear h (ceilTo (x.segLen i) 64),
     { g with pool := none, move := none, copied := false })
  | _, _, _ => (s, { g with move := none, copied := false })

def State.switchSegs (x : Obj) : Nat → State → List Seg → State × List Seg
  | _, s, [] => (s, [])
  | i, s, g :: gs =>
    let (s1, g1) := s.switchSeg x i g
    let (s2, l) := State.switchSegs x (i + 1) s1 gs
    (s2, g1 :: l)

def State.switchObj (s : State) (p id : Nat) : State :=
  let x := s.obj p id
  let (s1, l) := State.switchSegs x 0 s x.segs
  s1.setObj p id { x with segs := l }

/-- H and D of R273. -/
def Obj.density (x : Obj) : Nat := x.heat / ((x.size + 4095) / 4096)

def State.heatObj (s : State) (p id : Nat) : State :=
  let x := s.obj p id
  if x.stage = 2 then
    s.setObj p id { x with heat := min (2 ^ 32 - 1) (x.heat - x.heat / 2 ^ s.getF F.STAB_CTRL_DECAY + x.touched), touched := 0 }
  else s

/-- Keep a list sorted by a key while one element is put in; equal keys keep their order. -/
def insertBy {α : Type} (key : α → Nat) (a : α) : List α → List α
  | [] => [a]
  | b :: l => if key a < key b then a :: b :: l else b :: insertBy key a l

def sortBy {α : Type} (key : α → Nat) (l : List α) : List α := l.foldl (fun m a => insertBy key a m) []

/-- Demote an object: its copies move as the budget lets them (R275, R276). -/
def State.demote (s : State) (p id : Nat) : State :=
  let x := s.obj p id
  let segs := x.segs.map fun g =>
    if g.pool.isSome ∧ g.move = none ∧ g.home.isSome ∧ g.renew = false then { g with move := some none, copied := x.ro } else g
  (s.setObj p id { x with segs := segs }).addF F.STAB_DEMOTIONS_COUNT 1

/-- Bytes of the copies in progress: those decided at this edge, and those that continue. -/
def State.copyBytes (s : State) : Nat :=
  (s.objs.map fun e => ((numbered 0 e.2.segs).map fun g =>
    if (g.2.move.isSome ∧ g.2.copied = false) ∨ g.2.renew then e.2.segLen g.1 else 0).foldl (· + ·) 0).foldl (· + ·) 0

/-- The threshold of promotion by hint (R274). -/
def State.promoteAt (s : State) (hint : Nat) : Nat :=
  let d := s.getF F.STAB_THRESH_PROMOTE_D
  if hint = 1 then d / 2 else if hint = 2 then 2 * d else d

/-- The segments of an object that a promotion moves, by number. -/
def Obj.atHome (x : Obj) : List Nat :=
  (numbered 0 x.segs).filterMap fun g => if g.2.pool = none ∧ g.2.move = none ∧ g.2.home.isSome then some g.1 else none

/-- Places for the segments of a promotion. -/
def State.promoteSpots (s : State) (p : Nat) (x : Obj) : List Nat → List (Nat × Nat) → Option (List (Nat × Nat))
  | [], _ => some []
  | i :: is, used => match s.sliceSpot p x.teams used (x.segLen i) with
    | none => none
    | some a => (s.promoteSpots p x is ((a, ceilTo (x.segLen i) 0x1000) :: used)).map fun l => (i, a) :: l

def placeFor (l : List (Nat × Nat)) (i : Nat) : Option Nat := (l.find? fun e => e.1 == i).map (·.2)

/-- Promote an object if its share, the budget and the slices have room. -/
def State.promote (s : State) (p id : Nat) : State :=
  let x := s.obj p id
  let is := x.atHome
  let bytes := (is.map x.segLen).foldl (· + ·) 0
  let need := (is.map fun i => ceilTo (x.segLen i) 0x1000).foldl (· + ·) 0
  if is = [] ∨ s.shareSize p < s.shareUsed p + need ∨ s.getF F.STAB_MIG_BUDGET_BYTES < s.copyBytes + bytes then s
  else match s.promoteSpots p x is s.poolUsed with
  | none => s
  | some l =>
    let segs := (numbered 0 x.segs).map fun g => match placeFor l g.1 with
      | some a => { g.2 with move := some (some a), copied := false }
      | none => g.2
    (s.setObj p id { x with segs := segs }).addF F.STAB_PROMOTIONS_COUNT 1

/-- The decisions of an edge, in the order of R274. -/
def State.placementDecide (s : State) : State :=
  let keys := s.objKeys
  let s1 := keys.foldl (fun t e => t.switchObj e.1 e.2) s
  let s2 := keys.foldl (fun t e => t.heatObj e.1 e.2) s1
  let s3 := (s2.setF F.STAB_MIG_BUDGET_BYTES (s.pace.tp * 744000 * s.getF F.STAB_CTRL_MIG_PCT / 100)).setF
    F.STAB_MIG_USED_BYTES 0
  if s.getF F.STAB_CTRL_MIGRATE = 0 then s3
  else
    let dem := keys.filter fun e =>
      let x := s3.obj e.1 e.2
      decide (x.stage = 2) && !x.pin && (x.segs.any fun g => g.pool.isSome && g.move == none && !g.renew) &&
        decide (x.density < s3.getF F.STAB_THRESH_DEMOTE_D)
    let s4 := (sortBy (fun e => (s3.obj e.1 e.2).density) dem).foldl (fun t e => t.demote e.1 e.2) s3
    let pro := keys.filter fun e =>
      let x := s4.obj e.1 e.2
      decide (x.stage = 2) && !x.pin && decide (x.hint ≠ 3) && decide (x.atHome ≠ []) &&
        decide (s4.promoteAt x.hint ≤ x.density)
    (sortBy (fun e => 2 ^ 40 - (s4.obj e.1 e.2).density) pro).foldl (fun t e => t.promote e.1 e.2) s4

/-- The Team whose slice a migration reaches. -/
def moveTeam (g : Seg) : Option Nat :=
  match g.move with
  | some (some a) => poolTeam a
  | _ => g.pool.bind poolTeam

/-- The Team that a migration reaches and that is not ON. -/
def State.moveHeld (s : State) (g : Seg) : Option Nat :=
  match moveTeam g with
  | some t => if s.teamOn t then none else some t
  | none => none

/-- What a read-only segment's Pool copy is at its home: for a BOUND object each block as the crypto engine encrypts it,
under the nonce that it had (R278, R427). (DEDUCED, log 108) -/
def State.homeBytes (s : State) (x : Obj) (i a : Nat) : List Nat :=
  let plain := s.ldBytes a (x.segLen i)
  if x.bound then
    let k := s.keySlot x.keySlot
    (List.range ((x.segLen i + 4095) / 4096)).flatMap fun j =>
      let b := (plain.drop (4096 * j)).take 4096
      Config.gcmSeal k.key (leNat (leBytes 4 k.noncePrefix ++ leBytes 8 (i * segSize / 4096 + j))) []
        (b ++ List.replicate (4096 - b.length) 0)
  else plain

/-- The copy of segment `i` has come to its end; `a` is where it reads. -/
def State.copyEnd (s : State) (p id i a : Nat) (x : Obj) (g : Seg) : State :=
  let put (t : State) (g : Seg) : State := t.setObj p id { x with segs := x.segs.set i g }
  let drop := { g with move := none, copied := false }
  let paid := s.addF F.STAB_MIG_USED_BYTES (x.segLen i)
  match (List.range (x.segLen i)).find? fun j => s.ueHit (a + j) 1 with
  | some j => put (s.logUe (a + j) id (i * segSize + j)) { drop with renew := false, home := if g.renew then none else g.home }
  | none =>
    if g.renew then
      match g.home with
      | some h => put ((paid.stBytes h (s.homeBytes x i a)).ueClear h (ceilTo (x.segLen i) 64)) { g with renew := false }
      | none => put paid { g with renew := false }
    else if x.bound ∧ g.move ≠ some none then
      match s.boundBlocks x (i * segSize / 4096) ((x.segLen i + 4095) / 4096) with
      | .error _ => put (s.addF F.TRUST_INTEGRITY_COUNT 1) drop
      | .ok _ => put paid { g with copied := true }
    else put paid { g with copied := true }

/-- A segment's copy completes, where the budget of the tick holds its bytes (R276); it wakes a gated Team and waits for
it (R84). A copy that met an uncorrectable error, or a BOUND block whose tag fails, is abandoned (R271, R279).
(DESIGN CHOICE, log 32) -/
def execMigrationCopyComplete (p id i : Nat) (s : State) : Out :=
  if s.phase ≠ .up then .refused .cannotOccur
  else
    let x := s.obj p id
    match x.segs[i]? with
    | none => .refused .noSuchUnit
    | some g =>
      if (g.move = none ∨ g.copied) ∧ g.renew = false then .refused .cannotOccur
      else if s.getF F.STAB_MIG_BUDGET_BYTES < s.getF F.STAB_MIG_USED_BYTES + x.segLen i then .refused .cannotOccur
      else match g.base with
      | none => .refused .cannotOccur
      | some a => match s.moveHeld g with
        | some t => .next (s.reachSlice t)
        | none => .next ((s.reachSlices (moveTeam g).toList).copyEnd p id i a x g)

/-! ### Loss of a slice or a pair (R278) -/

/-- Contents that the spec calls undefined: free bytes. (DESIGN CHOICE, log 33) -/
def State.scramble (s : State) (a : Nat) : Nat → State
  | 0 => s
  | n + 1 => ((s.st8 a (s.free % 256)).used1).scramble (a + 1) n

/-- A segment that lay in a lost slice is back at its home. -/
def State.loseSlice (s : State) (t p id : Nat) : State :=
  let x := s.obj p id
  let inS (a : Nat) : Bool := decide (poolBase t ≤ a ∧ a < poolBase (t + 1))
  let hit (g : Seg) : Bool := match g.pool with
    | some a => inS a
    | none => false
  let tgt (g : Seg) : Bool := match g.move with
    | some (some a) => inS a
    | _ => false
  let gone (g : Seg) : Bool := hit g && (!x.ro || g.renew)
  let n := (x.segs.filter gone).length
  let segs := x.segs.map fun g =>
    if hit g then { g with pool := none, move := none, copied := false, renew := false }
    else if tgt g then { g with move := none, copied := false } else g
  if n = 0 then s.setObj p id { x with segs := segs }
  else
    let s1 := (numbered 0 x.segs).foldl (fun (u : State) g => match gone g.2, g.2.home with
      | true, some h => u.scramble h (x.segLen g.1)
      | _, _ => u) s
    ((s1.setEntry p id x.stage true).setObj p id { x with segs := segs, lost := true }).addF F.STAB_LOST_SEGS_COUNT n

/-- Segments that a lost slice leaves LOST. -/
def Obj.goneIn (x : Obj) (t : Nat) : Nat :=
  (x.segs.filter fun g => g.pool.any (fun a => decide (poolBase t ≤ a ∧ a < poolBase (t + 1))) && (!x.ro || g.renew)).length

/-- A slice is lost; the report of its fence counts the segments (Table RL-3). -/
def State.sliceLost (s : State) (t : Nat) : State :=
  let n := (s.objs.map fun e => e.2.goneIn t).foldl (· + ·) 0
  let s1 := s.objKeys.foldl (fun u e => u.loseSlice t e.1 e.2) s
  match (s1.fence 2 t).report with
  | some e => s1.addF (F.RAS_FENCE_LOG_DATA (16 * e + 13)) n
  | none => s1

/-- One segment of an object gets a new home where its home lies in the failed pair. A read-only segment in the Pool is
copied to it in the ticks that follow, within the budget; where no space exists the object is LOST and the segment has
no place. (DEDUCED, log 108) -/
def State.rehome (s : State) (pair p id i : Nat) : State :=
  let x := s.obj p id
  match x.segs[i]? with
  | none => s
  | some g => match g.home with
    | none => s
    | some h =>
      if gddrPair h ≠ pair then s
      else
        let len := x.segLen i
        let s0 := s.setObj p id { x with segs := x.segs.set i { g with home := none } }
        let h' := s0.homeSpot p (s0.arenaUsed p) len
        let kept := decide (x.ro = true ∧ g.pool.isSome = true ∧ h'.isSome = true)
        let g' := { g with home := h', move := none, copied := false, renew := kept,
                           pool := if x.ro = true ∧ kept = false then none else g.pool }
        let s1 := s.setObj p id { x with segs := x.segs.set i g' }
        if kept then s1
        else
          let s2 := match g'.base with
            | some a => s1.scramble a len
            | none => s1
          ((s2.setEntry p id x.stage true).setObj p id { (s2.obj p id) with lost := true }).addF F.STAB_LOST_SEGS_COUNT 1

def State.pairLost (s : State) (pair : Nat) : State :=
  s.objKeys.foldl (fun u e => (List.range (u.obj e.1 e.2).segs.length).foldl (fun v i => v.rehome pair e.1 e.2 i) u) s

/-! ### Channels and scrubs (R264 to R267, R460) -/

def nat0 : Nat → Nat := fun _ => 0

/-- A channel is FAILED: its pair is out of service, and R278 acts at the next edge. (DESIGN CHOICE, log 34) -/
def State.failChannel (s : State) (c : Nat) : State :=
  ((s.setF (F.GDDR_CH_STATE_CH_c c) 2).setF F.GDDR_STATUS_TRAIN 4).latch (.pairFail (c / 2))

/-- A retraining of channel `c` ends; `ok` says whether it succeeded. Only one channel retrains at a time.
(DESIGN CHOICE, log 34) -/
def execGddrRetrain (c : Nat) (ok : Bool) (s : State) : Out :=
  if s.phase ≠ .up then .refused .cannotOccur
  else if 16 ≤ c then .refused .noSuchUnit
  else
    let st := s.getF (F.GDDR_CH_STATE_CH_c c)
    let busy := (List.range 16).any fun d => d != c && decide (s.getF (F.GDDR_CH_STATE_CH_c d) = 1)
    if 2 ≤ st ∨ (st = 0 ∧ busy = true) then .refused .cannotOccur
    else
      let s1 := s.addF F.GDDR_RETRAIN_COUNT_COUNT 1
      if ok then .next { s1.setF (F.GDDR_CH_STATE_CH_c c) 0 with gddrFails := tset nat0 s1.gddrFails c 0 }
      else if tget nat0 s.gddrFails c = 0 then
        .next { s1.setF (F.GDDR_CH_STATE_CH_c c) 1 with gddrFails := tset nat0 s1.gddrFails c 1 }
      else .next { s1.failChannel c with gddrFails := tset nat0 s1.gddrFails c 0 }

/-- Failure `nth` (1 to 4) of one burst: it is retried; after the fourth the channel is retrained at once. -/
def execGddrCrcFail (c nth : Nat) (s : State) : Out :=
  if s.phase ≠ .up then .refused .cannotOccur
  else if 16 ≤ c then .refused .noSuchUnit
  else if nth = 0 ∨ 4 < nth ∨ s.getF (F.GDDR_CH_STATE_CH_c c) ≠ 0 then .refused .cannotOccur
  else
    let s1 := s.addF F.GDDR_CRC_RETRY_COUNT 1
    .next (if nth = 4 then s1.setF (F.GDDR_CH_STATE_CH_c c) 1 else s1)

/-- The patrol scrub reads the granule at `a`: `flips` bits of it are found wrong, of which one is corrected
and written back and more are not correctable. -/
def execGddrScrub (a flips : Nat) (s : State) : Out :=
  if s.phase ≠ .up then .refused .cannotOccur
  else if s.getF F.GDDR_SCRUB_HOURS = 0 ∨ a % 64 ≠ 0 ∨ s.gddrTop ≤ a ∨ s.pairOk (gddrPair a) = false then .refused .cannotOccur
  else if flips = 0 ∧ s.ueHit a 64 = false then .next s
  else if flips = 1 ∧ s.ueHit a 64 = false then .next (s.addF F.GDDR_CE_COUNT 1)
  else
    let s1 := if s.ueHit a 64 then s else { s with ue := s.ue ++ [(a, 64)] }
    let p := s1.errPlace
    .next { s1.logUe a 0 0 with errPlace := p }

end Sys2Proof.Machine
end

