-- ==== Sys2Proof/Machine/Isp.lean ====
section
/-!
DEFINITION. The arithmetic of the image signal processor (R290, R292, R296 to R300). An image between
stages is a function of the pixel's column and row; the pixels of a frame stand in lines.
-/
namespace Sys2Proof.Machine

/-- `s / 2 ^ k` rounded to the nearest integer, ties away from zero; `k` is 1 or more (R296). -/
def rndk (k : Nat) (s : Int) : Int :=
  let q : Nat := (s.natAbs + 2 ^ (k - 1)) / 2 ^ k
  if s < 0 then -(q : Int) else q

def clampTo (lo hi s : Int) : Int := if s < lo then lo else if s > hi then hi else s
def clamp16 (s : Int) : Nat := (clampTo 0 65535 s).toNat

/-- A plane of unsigned samples. -/
abbrev Img := Nat → Nat → Nat

/-- What a frame is processed with: its size, its format code (R290), P010 or NV12, and its port's active
parameter set by 32-bit word. -/
structure IspCfg where
  w : Nat
  h : Nat
  fmt : Nat
  p010 : Bool
  set : Tbl W32

def word0 : Nat → W32 := fun _ => 0#32

/-- The 16-bit parameter at a byte offset. -/
def IspCfg.u16 (c : IspCfg) (off : Nat) : Nat := fieldOf (tget word0 c.set (off / 4)) (off % 4 * 8) 16
def IspCfg.s16 (c : IspCfg) (off : Nat) : Int := signedOf 16 (c.u16 off)
/-- An enable bit of Table VF-5. -/
def IspCfg.en (c : IspCfg) (i : Nat) : Bool := decide (c.u16 0 / 2 ^ i % 2 = 1)

/-- An index with the part beyond an edge mirrored: -k reads k. -/
def mirror (n : Nat) (i : Int) : Nat := if i < 0 then i.natAbs else if (n : Int) ≤ i then (2 * ((n : Int) - 1) - i).toNat else i.toNat

/-- The pixel at an offset from (x, y), mirrored within the frame. -/
def IspCfg.at (c : IspCfg) (p : Img) (x y : Nat) (dx dy : Int) : Int := p (mirror c.w (x + dx)) (mirror c.h (y + dy))

def phase (x y : Nat) : Nat := 2 * (y % 2) + x % 2

/-- The colour of a phase: 0 red, 1 green, 2 blue. -/
def IspCfg.colour (c : IspCfg) (ph : Nat) : Nat :=
  match c.u16 0 / 64 % 4 with
  | 0 => [0, 1, 1, 2].getD ph 0
  | 1 => [1, 0, 2, 1].getD ph 0
  | 2 => [1, 2, 0, 1].getD ph 0
  | _ => [2, 1, 1, 0].getD ph 0

/-- Bits of a sample of the format. -/
def sampleBits (fmt : Nat) : Nat := if fmt = 5 then 8 else 8 + 2 * fmt

/-- Stage 1: left alignment. -/
def leftAlign (fmt v : Nat) : Nat := v % 2 ^ sampleBits fmt * 2 ^ (16 - sampleBits fmt)

/-- Stage 2: black level. -/
def IspCfg.black (c : IspCfg) (p : Img) : Img := fun x y =>
  let ph := phase x y
  if c.en 0 then clamp16 (rndk 12 ((p x y - c.u16 (8 + 2 * ph)) * c.u16 (0x10 + 2 * ph) : Nat)) else p x y

/-- Stage 3: defective pixels. -/
def IspCfg.defect (c : IspCfg) (p : Img) : Img := fun x y =>
  if c.en 1 then
    let around : List (Int × Int) := [(-2, -2), (0, -2), (2, -2), (-2, 0), (2, 0), (-2, 2), (0, 2), (2, 2)]
    let n := sortBy id (around.map fun d => (c.at p x y d.1 d.2).toNat)
    let thr := c.u16 0x18
    if p x y > n.getD 7 0 + thr ∨ p x y + thr < n.getD 0 0 then clamp16 (rndk 1 ((n.getD 3 0 + n.getD 4 0 : Nat) : Int)) else p x y
  else p x y

/-- The node and the weight of a coordinate (R297). -/
def shadeNode (v size : Nat) : Nat × Nat :=
  let f := v * 65536 / (size - 1)
  let j := min 15 (f / 4096)
  (j, f - 4096 * j)

/-- The lens-shading gain at a pixel (R297). -/
def IspCfg.gain (c : IspCfg) (x y : Nat) : Nat :=
  let (j, a) := shadeNode x c.w
  let (i, b) := shadeNode y c.h
  let g (r q : Nat) : Nat := c.u16 (0x800 + 2 * ((phase x y * 17 + r) * 17 + q))
  (rndk 24 ((g i j * (4096 - a) * (4096 - b) + g i (j + 1) * a * (4096 - b) + g (i + 1) j * (4096 - a) * b +
    g (i + 1) (j + 1) * a * b : Nat) : Int)).toNat

/-- Stage 4: lens shading. -/
def IspCfg.shade (c : IspCfg) (p : Img) : Img := fun x y =>
  if c.en 2 then clamp16 (rndk 12 ((p x y * c.gain x y : Nat) : Int)) else p x y

/-- Stage 5: white balance. -/
def IspCfg.balance (c : IspCfg) (p : Img) : Img := fun x y =>
  if c.en 3 then clamp16 (rndk 12 ((p x y * c.u16 (0x20 + 2 * phase x y) : Nat) : Int)) else p x y

/-- The Bayer plane after stage 5. -/
def IspCfg.bayer (c : IspCfg) (p : Img) : Img := c.balance (c.shade (c.defect (c.black p)))

/-! ### Stage 6: demosaic (R298) -/

/-- The difference and the estimate of green along one axis. -/
def greenAxis (x g1 g2 c1 c2 : Int) : Int × Int :=
  (((g1 - g2).natAbs : Int) + (2 * x - c1 - c2).natAbs, rndk 2 (2 * (g1 + g2) + 2 * x - c1 - c2))

def IspCfg.green (c : IspCfg) (p : Img) (x y : Nat) : Nat :=
  if c.colour (phase x y) = 1 then p x y
  else
    let v : Int := p x y
    let g (dx dy : Int) : Int := c.at p x y dx dy
    let (dh, gh) := greenAxis v (g (-1) 0) (g 1 0) (g (-2) 0) (g 2 0)
    let (dv, gv) := greenAxis v (g 0 (-1)) (g 0 1) (g 0 (-2)) (g 0 2)
    clamp16 (if dh < dv then gh else if dv < dh then gv else rndk 1 (gh + gv))

/-- The sum of (c - G_c) over neighbours of a pixel. -/
def IspCfg.chromaSum (c : IspCfg) (p : Img) (x y : Nat) : List (Int × Int) → Int
  | [] => 0
  | (dx, dy) :: l =>
    let u := mirror c.w (x + dx)
    let v := mirror c.h (y + dy)
    (p u v : Int) - c.green p u v + c.chromaSum p x y l

/-- Colour `k` (0 red, 2 blue) at a pixel. -/
def IspCfg.redBlue (c : IspCfg) (p : Img) (k x y : Nat) : Nat :=
  let here := c.colour (phase x y)
  if here = k then p x y
  else if here = 1 then
    let l : List (Int × Int) := if c.colour (phase (x + 1) y) = k then [(-1, 0), (1, 0)] else [(0, -1), (0, 1)]
    clamp16 (p x y + rndk 1 (c.chromaSum p x y l))
  else clamp16 (c.green p x y + rndk 2 (c.chromaSum p x y [(-1, -1), (1, -1), (-1, 1), (1, 1)]))

/-- R, G and B at a pixel. -/
def IspCfg.rgb (c : IspCfg) (p : Img) (x y : Nat) : List Nat := [c.redBlue p 0 x y, c.green p x y, c.redBlue p 2 x y]

/-! ### Stages 7 to 9 -/

/-- The exact sum of a row of a 3 x 3 matrix at a byte offset with a pixel. -/
def IspCfg.row (c : IspCfg) (off i : Nat) (v : List Nat) : Int :=
  c.s16 (off + 6 * i) * v.getD 0 0 + c.s16 (off + 6 * i + 2) * v.getD 1 0 + c.s16 (off + 6 * i + 4) * v.getD 2 0

/-- Stage 7: colour matrix. -/
def IspCfg.matrix (c : IspCfg) (v : List Nat) : List Nat :=
  if c.en 4 then [0, 1, 2].map fun i => clamp16 (rndk 12 (c.row 0x28 i v) + c.s16 (0x28 + 18 + 2 * i)) else v

/-- Stage 8: tone curves. -/
def IspCfg.tone (c : IspCfg) (v : List Nat) : List Nat :=
  if c.en 5 then [0, 1, 2].map fun ch =>
    let x := v.getD ch 0
    let l (i : Nat) : Int := c.u16 (0x100 + 2 * (257 * ch + i))
    clamp16 (l (x / 256) + rndk 8 ((l (x / 256 + 1) - l (x / 256)) * (x % 256 : Nat)))
  else v

/-- R, G and B of a pixel after stage 8. -/
def IspCfg.toned (c : IspCfg) (p : Img) (x y : Nat) : List Nat := c.tone (c.matrix (c.rgb p x y))

def IspCfg.outBits (c : IspCfg) : Nat := if c.p010 then 10 else 8

/-- Stage 9 at a pixel: component `i` of Y, Cb and Cr. -/
def IspCfg.ycc (c : IspCfg) (v : List Nat) (i : Nat) : Nat :=
  (clampTo 0 (2 ^ c.outBits - 1) (rndk (28 - c.outBits) (c.row 0x40 i v) + c.s16 (0x40 + 18 + 2 * i))).toNat

/-- A raw sample of column x and row y in the lines of a frame. -/
def sampleOf (lines : List (List Nat)) : Img := fun x y => (lines.getD y []).getD x 0

/-- An 8-bit component of YUV 4:2:2 in the output's bits: left-aligned, and cut to them. -/
def IspCfg.widen (c : IspCfg) (v : Nat) : Nat := v % 256 * 2 ^ (c.outBits - 8)

/-- Y of the output. -/
def IspCfg.luma (c : IspCfg) (lines : List (List Nat)) : Img :=
  if c.fmt = 5 then fun x y => c.widen (sampleOf lines x y / 256)
  else fun x y => c.ycc (c.toned (c.bayer fun x y => leftAlign c.fmt (sampleOf lines x y)) x y) 0

/-- Component `i` (1 Cb, 2 Cr) of the 2 x 2 block in column `bx` and row `by` of blocks (R296, R299). -/
def IspCfg.chroma (c : IspCfg) (lines : List (List Nat)) (i bx by' : Nat) : Nat :=
  if c.fmt = 5 then
    let v (r : Nat) : Nat := c.widen (sampleOf lines (2 * bx + (i - 1)) (2 * by' + r))
    (rndk 2 ((2 * (v 0 + v 1) : Nat) : Int)).toNat
  else
    let p := c.bayer fun x y => leftAlign c.fmt (sampleOf lines x y)
    let v (dx dy : Nat) : Nat := c.ycc (c.toned p (2 * bx + dx) (2 * by' + dy)) i
    (rndk 2 ((v 0 0 + v 1 0 + v 0 1 + v 1 1 : Nat) : Int)).toNat

/-! ### The frame buffer (R299) -/

def framePitch (w : Nat) (p010 : Bool) : Nat := ((if p010 then 2 * w else w) + 63) / 64 * 64

/-- Bytes of a frame buffer that a frame takes. -/
def frameBytes (w h : Nat) (p010 : Bool) : Nat := framePitch w p010 * (h + h / 2)

/-- The bytes of one sample: P010 holds it in bits [15:6]. -/
def samplesBytes (p010 : Bool) (l : List Nat) : List Nat :=
  if p010 then l.flatMap fun v => leBytes 2 (v * 64) else l.map (· % 256)

/-- Write rows of samples from an address. -/
def State.putRows (s : State) (p010 : Bool) (pitch a : Nat) : List (List Nat) → State
  | [] => s
  | r :: rs => (s.stBytes a (samplesBytes p010 r)).putRows p010 pitch (a + pitch) rs

/-- Write a picture of size w x h: its luma, and its chroma by component and block. -/
def State.putFrame (s : State) (w h : Nat) (p010 : Bool) (a : Nat) (luma : Img) (chroma : Nat → Img) : State :=
  let pitch := framePitch w p010
  let ys := (List.range h).map fun y => (List.range w).map fun x => luma x y
  let cs := (List.range (h / 2)).map fun y => (List.range (w / 2)).flatMap fun x => [chroma 1 x y, chroma 2 x y]
  (s.putRows p010 pitch a ys).putRows p010 pitch (a + pitch * h) cs

/-! ### Statistics (R300) -/

/-- The first and the last-but-one pixel of zone `i` along an axis of `n` pixels. -/
def zoneSpan (n i : Nat) : Nat × Nat := (i * (n / 16), if i = 15 then n else (i + 1) * (n / 16))

/-- The pixels of a zone. -/
def zonePixels (w h z : Nat) : List (Nat × Nat) :=
  let (x0, x1) := zoneSpan w (z % 16)
  let (y0, y1) := zoneSpan h (z / 16)
  (List.range (y1 - y0)).flatMap fun j => (List.range (x1 - x0)).map fun i => (x0 + i, y0 + j)

/-- Histogram of Y, 256 counts. -/
def IspCfg.histogram (c : IspCfg) (lines : List (List Nat)) : List Nat :=
  let ys := (List.range c.h).flatMap fun y => (List.range c.w).map fun x =>
    let v := c.luma lines x y
    if c.p010 then v / 4 else v
  (List.range 256).map fun b => ys.count b

/-- The sums of a zone: R, G and B above STAT_SAT's limit left out, and the pixels summed. -/
def IspCfg.zoneSums (c : IspCfg) (lines : List (List Nat)) (z : Nat) : List Nat :=
  let p := c.bayer fun x y => leftAlign c.fmt (sampleOf lines x y)
  let vs := ((zonePixels c.w c.h z).map fun q => (c.toned p q.1 q.2).map (· / 256)).filter fun v =>
    v.all fun k => decide (k ≤ c.u16 0x58)
  let sum (i : Nat) : Nat := (vs.map fun v => v.getD i 0).foldl (· + ·) 0
  [sum 0, sum 1, sum 2, vs.length]

def IspCfg.zoneMean (c : IspCfg) (lines : List (List Nat)) (z : Nat) : Nat :=
  let q := zonePixels c.w c.h z
  let t := (q.map fun e => c.luma lines e.1 e.2).foldl (· + ·) 0
  (2 * t + q.length) / (2 * q.length)

/-- Write the statistics at an address. In YUV 4:2:2 the spec gives the sums of R, G and B no value. -/
def State.putStats (s : State) (c : IspCfg) (lines : List (List Nat)) (a : Nat) : State :=
  let s1 := s.stBytes a ((c.histogram lines).flatMap (leBytes 4))
  let zones := List.range 256
  let sums := if c.fmt = 5 then (List.range 1024).map fun i => Config.freeNat (s.fresh + i) % 2 ^ 32
    else zones.flatMap (c.zoneSums lines)
  let s2 := s1.stBytes (a + 0x400) (sums.flatMap (leBytes 4))
  let s3 := s2.stBytes (a + 0x1400) ((zones.map (c.zoneMean lines)).flatMap (leBytes 2))
  if c.fmt = 5 then { s3 with fresh := s3.fresh + 1024 } else s3

end Sys2Proof.Machine
end

