-- ==== Sys2Proof/Machine/Host.lean ====
section
/-!
DEFINITION. The host interface: rings and doorbells, taking and decoding descriptors, completion
records, vectors, and the parts of a job on its cores (R91 to R98, R325 to R350).
-/
namespace Sys2Proof.Machine

/-! ### Partitions and functions -/

def part0h : Nat → Part := fun _ => {}

/-- Bytes lie within a partition's GDDR6 range. -/
def State.inRange (s : State) (p a len : Nat) : Bool :=
  let x := s.part p
  x.live && decide (x.gddrBase * 0x100000 ≤ a ∧ a + len ≤ (x.gddrBase + x.gddrSize) * 0x100000)

/-- Bytes lie within the host window (R28). -/
def inHost (a len : Nat) : Bool := decide (0x800000000000 ≤ a ∧ a + len ≤ 0x1000000000000)

/-- The present logical cores of a partition, in ascending order. -/
def State.coresOf (s : State) (p : Nat) : List Nat :=
  (List.range 64).filter fun n => decide ((s.part p).teams / 2 ^ (n / 8) % 2 = 1) && (s.slotOf n).isSome && !s.coreFenced n

/-- The Device ID that a function's configuration space shows (R324). -/
def deviceId (fn : Nat) : Nat := if fn = 0 then 0x0C07 else 0x0C17

/-! ### Ring configuration entries (Table HQ-2) -/

def ringF (r dw lo w : Nat) : Fld := ⟨0x100000 + 64 * r + 4 * dw, lo, w⟩

def State.rEN (s : State) (r : Nat) : Nat := s.getF (ringF r 1 31 1)
def State.rOWNER (s : State) (r : Nat) : Nat := s.getF (ringF r 1 24 6)
def State.rPART (s : State) (r : Nat) : Nat := s.getF (ringF r 1 21 3)
def State.rSQ (s : State) (r : Nat) : Nat := 2 ^ s.getF (ringF r 1 16 5)
def State.rCQLOG (s : State) (r : Nat) : Nat := s.getF (ringF r 1 11 5)
def State.rVEC (s : State) (r : Nat) : Nat := s.getF (ringF r 1 0 5)
def State.rSQBASE (s : State) (r : Nat) : Nat := s.getF (ringF r 2 0 32) + s.getF (ringF r 3 0 16) * 2 ^ 32
def State.rCQBASE (s : State) (r : Nat) : Nat := s.getF (ringF r 4 0 32) + s.getF (ringF r 5 0 16) * 2 ^ 32
def rSQHEAD (r : Nat) : Fld := ringF r 6 0 32
def rSQTAIL (r : Nat) : Fld := ringF r 7 0 32
def rCQHEAD (r : Nat) : Fld := ringF r 8 0 32
def rCQTAIL (r : Nat) : Fld := ringF r 9 0 32
def rPENDING (r : Nat) : Fld := ringF r 10 0 20
def rABORTING (r : Nat) : Fld := ringF r 10 29 1
def rSTALL (r : Nat) : Fld := ringF r 10 30 1
def rDBERR (r : Nat) : Fld := ringF r 10 31 1

def ring0 : Nat → Ring := fun _ => {}
def State.ring (s : State) (r : Nat) : Ring := tget ring0 s.rings r
def State.modRing (s : State) (r : Nat) (f : Ring → Ring) : State := { s with rings := tmod ring0 s.rings r f }

/-- Difference of two free-running 32-bit counts. -/
def cdiff (a b : Nat) : Nat := (a + 2 ^ 32 - b % 2 ^ 32) % 2 ^ 32

/-- The CQ has room for `n` records beyond those reserved. -/
def State.cqRoomFor (s : State) (r n : Nat) : Bool :=
  decide (cdiff (s.getF (rCQTAIL r)) (s.getF (rCQHEAD r)) + (s.ring r).resv + n ≤ 2 ^ s.rCQLOG r)

/-- Descriptor buffer entries held, in the whole device: each until the final record of its descriptor. (DEDUCED, log 100) -/
def State.descHeld (s : State) : Nat :=
  (s.rings.map fun e => e.2.taken.length).foldl (· + ·) 0 + ((s.jobs.filter fun e => !e.2.frame).length)

/-! ### Vectors (R328, R336) -/

/-- MSI-X vector control after reset: masked. (PRESUMED, log 36) -/
def msix0 : Nat → W32 := fun i => if i % 4 = 3 then 1#32 else 0#32

/-- Signal vector `vec` of a function: a message, or its PBA bit where the vector is masked. (PRESUMED, log 36) -/
def State.signalVec (s : State) (fn vec : Nat) : State :=
  let i := 128 * fn + 4 * vec
  if (tget msix0 s.msix (i + 3)).toNat % 2 = 1 then
    { s with msix := tset msix0 s.msix (0x10000 + fn) (tget msix0 s.msix (0x10000 + fn) ||| BitVec.ofNat 32 (2 ^ vec)) }
  else { s with irqs := s.irqs ++ [(fn, vec)] }

/-! ### Completion records (R335, R345) -/

/-- Put the PHASE bit, SQHEAD and 64 bytes of a record into the CQ, and signal where it triggers. (DEDUCED, log 42) -/
def State.putRecord (s : State) (r : Nat) (w : List Nat) (final irq : Bool) : State :=
  let n := s.getF (rCQTAIL r)
  let lg := s.rCQLOG r
  let phase := if n / 2 ^ lg % 2 = 0 then 2 ^ 63 else 0
  let w0 := phase + (if final then 2 ^ 62 else 0) + w.getD 0 0
  let w3 := w.getD 3 0 * 2 ^ 32 + s.getF (rSQHEAD r)
  let bytes := [w0, w.getD 1 0, w.getD 2 0, w3, w.getD 4 0, w.getD 5 0, w.getD 6 0, w.getD 7 0].flatMap (leBytes 8)
  let s1 := (s.stBytes (s.rCQBASE r + 64 * (n % 2 ^ lg)) bytes).setF (rCQTAIL r) (n + 1)
  let k := (s1.ring r).unsent + 1
  let cnt := s1.getF (ringF r 0 0 16)
  if (final ∧ irq) ∨ (cnt ≠ 0 ∧ cnt ≤ k) then
    (s1.modRing r fun x => { x with unsent := 0 }).signalVec (s1.rOWNER r) (s1.rVEC r)
  else s1.modRing r fun x => { x with unsent := k }

/-- Release `n` of the ring's reserved records. -/
def State.unreserve (s : State) (r n : Nat) : State := s.modRing r fun x => { x with resv := x.resv - n }

/-- One descriptor or frame job of the ring has its final record (Table HQ-2: PENDING). -/
def State.settled (s : State) (r : Nat) : State :=
  let s1 := s.setF (rPENDING r) (s.getF (rPENDING r) - 1)
  if s1.getF (rPENDING r) = 0 then s1.setF (rABORTING r) 0 else s1

/-- Outcome classes. -/
def oServed : Nat := 0
def oDeferred : Nat := 1
def oRefused : Nat := 2
def oPartial : Nat := 3
def oAborted : Nat := 4
def oFaulted : Nat := 5

/-- NOTES (Table HQ-7, R346). -/
def Job.notes (j : Job) : Nat :=
  (if j.escalated then 1 else 0) + (if j.exceeded ∧ j.escalated = false then 2 else 0) + (if j.kvRefused then 4 else 0) +
  (if j.concealed then 8 else 0) + (if j.dupClaim then 16 else 0) + (if j.deferred then 32 else 0) +
  (if j.suppressed then 64 else 0)

/-- REASON of a SERVED record: the lowest code among notes 0 to 4 (R346). -/
def Job.servedReason (j : Job) : Nat :=
  if j.escalated then 0x01 else if j.exceeded then 0x02 else if j.kvRefused then 0x03
  else if j.concealed then 0x04 else if j.dupClaim then rDuplicateClaim else rOK

/-- The smallest claimed tile that is not complete, with its core (R348). (DEDUCED, log 40) -/
def Job.wmClaim (j : Job) : Option (Nat × Nat) :=
  j.ended.foldl (fun m e => match e.tile, m with
    | none, m => m
    | some t, none => some (t, e.core)
    | some t, some b => if t < b.1 then some (t, e.core) else some b) none

/-- The words of a record (Table HQ-7); SQHEAD and PHASE are added where it is written. (DEDUCED, log 40) -/
def State.recordWords (s : State) (j : Job) (outcome reason : Nat) : List Nat :=
  let tickLo := s.tick % 2 ^ 32
  let wm := decide (outcome ≠ oServed ∧ outcome ≠ oDeferred ∧ outcome ≠ oRefused ∧ j.admitted)
  let next := (tget tally0 (s.team (j.pctr / 256)).tally (j.pctr % 256)).next
  let claim := if j.pen then (match j.wmClaim with
    | some (t, c) => if t ≤ next then (t, c) else (next, 0xFF)
    | none => (if j.started then next else j.tstart, 0xFF)) else (2 ^ 32 - 1, 0xFF)
  let who := if claim.2 = 0xFF then
      (j.stops.head?.bind fun n => j.ended.find? fun e => e.core == n).or (j.ended.find? fun e => !e.halted)
    else j.ended.find? fun e => e.core == claim.2
  let cmd := match who with
    | some e => e.cmd
    | none => (0, 0)
  let f : FaultRec := j.firstFault.getD {}
  let w0 := outcome * 2 ^ 59 + (if j.overrun then 2 ^ 58 else 0) + (if j.frame then 2 ^ 57 else 0) +
    (if wm then 2 ^ 56 else 0) + reason % 256 * 2 ^ 48 + j.throttle % 256 * 2 ^ 40 + j.notes * 2 ^ 32 + j.seq % 2 ^ 32
  let u := s.free
  let w4 := (if wm then claim.1 % 2 ^ 32 * 2 ^ 32 + cmd.2 % 65536 * 2 ^ 16 + claim.2 % 256 * 2 ^ 8
             else u % 2 ^ 48 * 2 ^ 16 + 0xFF * 2 ^ 8) + j.nstop % 256
  let w5 := (if wm then cmd.1 else u / 2 ^ 48) % 2 ^ 48 * 2 ^ 16 + f.source % 16 * 2 ^ 12 + (j.ended.filter (·.ran)).length % 128
  let placed := f.reason = rUncorrectable ∨ f.reason = rIntegrity
  let w6 := if placed then f.obj % 65536 * 2 ^ 48 + f.off % 2 ^ 40 else 0
  [w0, j.cookie.toNat, (if j.admitted then j.admitTick else u / 2 ^ 96) % 2 ^ 32 * 2 ^ 32 + tickLo, min j.cycles (2 ^ 32 - 1), w4, w5, w6,
   j.epoch % 2 ^ 32 * 2 ^ 32]

/-- Write a record of a job in a ring. The fields that a record without a watermark, or of a job never admitted, leaves
without a meaning are free. (DEDUCED, log 40) -/
def State.writeRecord (s : State) (r : Nat) (j : Job) (outcome reason : Nat) (final irq : Bool) : State :=
  (s.putRecord r (s.recordWords j outcome reason) final irq).used1

/-! ### Slots of a stream context (R317) -/

def sctx0 : Nat → Sctx := fun _ => {}
def State.sctx (s : State) (n : Nat) : Sctx := tget sctx0 s.vis.ctxs n
def State.setSctx (s : State) (n : Nat) (x : Sctx) : State := { s with vis := { s.vis with ctxs := tset sctx0 s.vis.ctxs n x } }
def State.modSctx (s : State) (n : Nat) (f : Sctx → Sctx) : State := s.setSctx n (f (s.sctx n))

/-- Slots of a frame are free again. -/
def State.freeSlots (s : State) (n slot0 slot1 : Nat) : State :=
  s.modSctx n fun x => { x with slots0 := x.slots0.filter (· ≠ slot0), slots1 := x.slots1.filter (· ≠ slot1) }

/-- Write the final record of a job and forget the job; its frame's slots are free. -/
def State.finalRecord (s : State) (i outcome reason : Nat) : State :=
  let j := s.job i
  let s := if j.holds then s.freeSlots j.sctx j.slot0 j.slot1 else s
  let s1 := (s.unreserve j.ring (if j.deferred then 1 else 2)).writeRecord j.ring j outcome reason true j.irq
  { (s1.settled j.ring).setJob i {} with deferred := s1.deferred.filter (· ≠ i) }

/-- A record that ends a descriptor without a job of its own. -/
def State.plainRecord (s : State) (r : Nat) (j : Job) (outcome reason : Nat) : State :=
  ((s.unreserve r 2).writeRecord r j outcome reason true j.irq).settled r

/-! ### The outcome of a job (R345) -/

/-- The outcome and the reason of a job whose parts have all ended. -/
def Job.outcome (j : Job) : Nat × Nat :=
  match j.firstFault with
  | some f => (oFaulted, f.reason)
  | none =>
    if j.ended.all (·.halted) ∧ j.stop = none then (oServed, j.servedReason)
    else if j.ended.any (·.halted) then (oPartial, 0x20)
    else (oAborted, j.stop.getD rFence)

/-- Every part of a job has ended. -/
def State.jobDone (s : State) (i : Nat) : State :=
  let j := s.job i
  let (o, r) := j.outcome
  s.finalRecord i o r

/-- The core's first claimed tile that is not complete; `halted` says the last claim is followed by HALT. -/
def firstOpenTile (sent : List (Nat × Nat × Bool)) (halted : Bool) (cmdcnt : Nat) : List (Nat × Nat) → Option Nat
  | [] => none
  | (t, n) :: l =>
    let stop := match l with
      | (_, m) :: _ => some m
      | [] => if halted then some cmdcnt else none
    let done : Bool := match stop with
      | some m => sent.all fun e => e.2.2 || !decide (n < e.1 ∧ e.1 ≤ m)
      | none => false
    let rest := firstOpenTile sent halted cmdcnt l
    if done = true ∨ 2 ^ 32 ≤ t then rest
    else match rest with
      | some u => some (min t u)
      | none => some t

/-- The part of a job on the core of slot `k` ends: `halted` where it halted normally; otherwise it faulted, or
was stopped from outside with the reason given. -/
def State.endPart (s : State) (k n : Nat) (halted : Bool) (outside : Option Nat) : State :=
  let c := s.core k
  match c.job with
  | none => s
  | some i =>
    let j := s.job i
    let e : PartEnd := { core := n, halted := halted, tile := firstOpenTile c.sent halted c.cmdcnt c.claims,
                         cmd := c.front }
    let fault := if halted = false ∧ outside = none ∧ c.fault.valid = true then some c.fault else none
    let j' := { j with ended := j.ended ++ [e], nstop := if halted then j.nstop else j.nstop + 1,
                       stops := if halted ∨ n ∈ j.stops then j.stops else j.stops ++ [n],
                       firstFault := match j.firstFault with
                         | some f => some f
                         | none => fault,
                       stop := match j.stop with
                         | some r => some r
                         | none => outside,
                       cycles := j.cycles + c.jobSpent }
    let s1 := (s.setJob i j').modCore k fun c => { c with job := none, jobSpent := 0 }
    if j.cores.length ≤ j'.ended.length then s1.jobDone i else s1

/-- A job that has not begun on core `n` loses that part to an outside stop. -/
def State.endUnstarted (s : State) (i n reason : Nat) : State :=
  let j := s.job i
  let j' := { j with ended := j.ended ++ [{ core := n, halted := false, tile := none, cmd := (0, 0), ran := false }],
                     nstop := j.nstop + 1, stop := match j.stop with
                       | some r => some r
                       | none => some reason }
  let s1 := s.setJob i j'
  if j.cores.length ≤ j'.ended.length then s1.jobDone i else s1

/-! ### Jobs on cores (R97, R98, R343) -/

/-- Nothing that the core issued is in flight. -/
def State.coreQuiet (s : State) (k n : Nat) : Bool :=
  let c := s.core k
  let t := s.team (k / 9)
  let mine (l : List Cmd) : Bool := l.any fun x => x.core == n
  let mineA (a : Option Active) : Bool := match a with
    | some x => x.cmd.core == n
    | none => false
  decide (c.mq = [] ∧ c.xq = [] ∧ c.vq = [] ∧ c.dq = [] ∧ c.kq = [] ∧ c.actM = none ∧ c.actX = none ∧ c.actV = none ∧
    c.actD = none ∧ c.actK = none ∧ c.landM = [] ∧ c.landD = []) && !mine t.eq && !mine t.fq && !mineA t.actE && !mineA t.actF

/-- A core is idle: halted, with no command and no job (R81). -/
def State.coreIdle (s : State) (k n : Nat) : Bool :=
  let c := s.core k
  !c.run && decide (c.job = none) && s.coreQuiet k n

/-- Another job that has started and not ended holds the counter. -/
def State.counterBusy (s : State) (i : Nat) : Bool :=
  let j := s.job i
  s.jobs.any fun e => e.1 != i && e.2.started && e.2.pen && e.2.pctr == j.pctr

/-- The argument block as it is copied (R343). -/
def State.argBlock (s : State) (j : Job) : List Nat :=
  let b := s.ldBytes j.argAddr 256
  if j.strm = false then b
  else b.take 224 ++ leBytes 4 (if j.frame then j.seq else 0) ++ leBytes 2 j.sctx ++ [j.slot0 % 256, j.slot1 % 256] ++
    leBytes 4 j.fbidx ++ leBytes 4 j.kvLen ++ leBytes 16 j.kvBase

/-- What a core holds when a job starts on it (R97, R462). -/
def Core.dispatch (c : Core) (i : Nat) (j : Job) (n tick : Nat) : Core :=
  { c with
    sregs := [(1, BitVec.ofNat 64 c.argOff), (2, BitVec.ofNat 64 j.epoch), (3, BitVec.ofNat 64 tick), (4, BitVec.ofNat 64 n)].filter
      fun e => e.2 ≠ 0#64,
    storeTop := c.staticSize, fault := {}, faulted := false, pc := j.entry, run := true, stopped := false,
    stepping := false, wait := none, epoch := j.epoch, handles := [], intHandles := [], crs := [],
    guard := { c.guard with group := 0 }, job := some i, jobQ := c.jobQ.tail, jobSpent := 0, startCnt := c.cmdcnt,
    claims := [], sent := [], front := (c.cmdcnt, 0) }

/-- The next job in admission order starts on logical core `n`. Its argument block is copied in; where the block cannot be
read, the part faults before its first instruction (R27, R31). (DEDUCED, log 40) -/
def execJobStart (n : Nat) (s : State) : Out :=
  if s.phase ≠ .up then .refused .cannotOccur
  else match s.slotOf n with
  | none => .refused .noSuchUnit
  | some k =>
    let c := s.core k
    match c.jobQ with
    | [] => .refused .cannotOccur
    | i :: _ =>
      let j := s.job i
      let t := j.pctr / 256
      if c.run ∨ c.job ≠ none ∨ s.coreQuiet k n = false ∨ (j.pen ∧ j.started = false ∧ s.counterBusy i) then .refused .cannotOccur
      else if s.teamOn (n / 8) = false then .next (s.reachTeam (n / 8))
      else if j.pen ∧ j.started = false ∧ s.teamOn t = false then .next (s.reachTeam t)
      else
        let ctr : TallyCtr := { epoch := j.epoch, limit := j.tlimit, next := j.tstart }
        let s1 := if j.pen ∧ j.started = false then
            s.modTeam t fun x => { x with tally := tset tally0 x.tally (j.pctr % 256) ctr } else s
        let s2 := (s1.setJob i { j with started := true }).reachSlice (n / 8)
        match s.memBad j.argAddr 256 with
        | some (r, a) => .next (((if r = rUncorrectable then s2.logUe a 0xFFFF a else s2).modCore k fun c =>
            c.dispatch i j n s.tick).stopCore k n { reason := r, cmdcnt := c.cmdcnt, tag := c.ctag, pc := j.entry, detail := a % 2 ^ 32 })
        | none =>
          .next (((s2.stBytes (storeBase n + c.argOff) (s.argBlock j)).ueClear (storeBase n + c.argOff) 256).modCore k fun c =>
            c.dispatch i j n s.tick)

/-- The carried work of the core ends here: E_c (R47). -/
def Core.measure (c : Core) (i : Nat) : Core :=
  let l := c.carry.filter (· ≠ i)
  if c.carry ≠ [] ∧ l = [] then { c with carry := [], excess := c.ran - c.carryCost } else { c with carry := l }

/-- The part of the running job on logical core `n` is complete; it ran `cycles` cycles since the last edge or
its start (R98). A part that a fault or an abort stopped is complete when what had begun has ended. -/
def execJobCoreComplete (n cycles : Nat) (s : State) : Out :=
  if s.phase ≠ .up then .refused .cannotOccur
  else match s.slotOf n with
  | none => .refused .noSuchUnit
  | some k =>
    let c := s.core k
    match c.job with
    | none => .refused .cannotOccur
    | some i =>
      if c.run ∨ s.coreQuiet k n = false ∨ c.outstanding ≠ 0 then .refused .cannotOccur
      else
        let c1 := ({ c with jobSpent := c.jobSpent + cycles, ran := c.ran + cycles }).measure i
        let s1 := (s.setCore k c1).reachSlice (n / 8)
        let s2 := if c1.excess > s.getF F.PACE_OVR_MAX_CYCLES ∧ c.carry ≠ c1.carry then s1.setF F.PACE_OVR_MAX_CYCLES c1.excess else s1
        if c.faulted then .next (s2.endPart k n false (if outsideStop c.fault.reason then some c.fault.reason else none))
        else .next (s2.endPart k n true none)

/-! ### Doorbells (R331, R332) -/

/-- The port reaches the doorbell page of ring `r`. (DEDUCED, log 37) -/
def State.dbPage (s : State) (port : Port) (r : Nat) : Bool :=
  match port with
  | .vf v => (s.vfPart v).isSome && decide (s.getF (F.HQE_VF_RING_BASE v) ≤ r ∧ r < s.getF (F.HQE_VF_RING_BASE v) + 256)
  | .mgmt => false
  | _ => true

/-- An enable of the ring waits for the snapshot. -/
def State.enabling (s : State) (r : Nat) : Bool :=
  s.events.any fun e => match e with
    | .ringEnable q _ => q == r
    | _ => false

/-- A write to a doorbell page: outside the function's pages it is a write to an unpopulated address; for a
disabled ring it is ignored and counted, unless an enable of the ring waits for the snapshot: then it is latched behind
the enable (R330, R353). `kind` is 0 for SQ_TAIL, 1 for CQ_HEAD, 2 for ABORT. (DEDUCED, log 98) -/
def doorbell (port : Port) (r kind : Nat) (w : W32) (s : State) (f : State → State) : Out :=
  if s.phase ≠ .up then unreached s
  else if 16384 ≤ r then .refused .noSuchUnit
  else if port = .mgmt then .next (s.denied port)
  else if s.dbPage port r = false then .next (s.addF F.RAS_UNPOP_WR_COUNT 1)
  else if s.rEN r = 0 then
    .next (if s.enabling r then s.modRing r fun x => { x with early := x.early ++ [(kind, w)] } else s.addF F.HQE_DB_IGNORED_COUNT 1)
  else .next (f s)

def State.dbIgnored (s : State) (r : Nat) : State := (s.addF F.HQE_DB_IGNORED_COUNT 1).raise (rDBERR r)

/-- A tail doorbell (R332). -/
def State.dbTail (s : State) (r : Nat) (w : W32) : State :=
  let d := cdiff w.toNat (s.getF (rSQHEAD r))
  if cdiff (s.getF (rSQTAIL r)) (s.getF (rSQHEAD r)) ≤ d ∧ d ≤ s.rSQ r then s.setF (rSQTAIL r) w.toNat else s.dbIgnored r

def execDbSqTail (port : Port) (r : Nat) (w : W32) (s : State) : Out := doorbell port r 0 w s fun s => s.dbTail r w

/-- Write the records of discarded descriptors while the CQ has room (R338). -/
def State.flushDropped (s : State) (r : Nat) : Nat → State
  | 0 => s
  | n + 1 => match (s.ring r).dropped with
    | [] => s
    | (seq, cookie, irq) :: l =>
      if s.cqRoomFor r 1 = false then s
      else
        let j : Job := { ring := r, part := s.rPART r, seq := seq, cookie := cookie, irq := irq }
        let s1 := (s.modRing r fun x => { x with dropped := l }).writeRecord r j oAborted (s.ring r).dropReason true irq
        (s1.settled r).flushDropped r n

/-- A head doorbell releases records at once; taking that waited for their space waits no more. -/
def State.dbHead (s : State) (r : Nat) (w : W32) : State :=
  if cdiff (s.getF (rCQTAIL r)) w.toNat ≤ cdiff (s.getF (rCQTAIL r)) (s.getF (rCQHEAD r)) then
    let s1 := s.setF (rCQHEAD r) w.toNat
    let s2 := s1.flushDropped r (s1.ring r).dropped.length
    if s2.cqRoomFor r 2 then s2.setF (rSTALL r) 0 else s2
  else s.dbIgnored r

def execDbCqHead (port : Port) (r : Nat) (w : W32) (s : State) : Out := doorbell port r 1 w s fun s => s.dbHead r w

/-- A write of 1 is latched for the snapshot; a write of 0 does nothing. -/
def execDbAbort (port : Port) (r : Nat) (w : W32) (s : State) : Out :=
  doorbell port r 2 w s fun s => if w.toNat % 2 = 1 then s.latch (.ringAbort r 0x22) else s

/-! ### Taking and decoding (R333, R340) -/

/-- Reserved bits of a descriptor in a ring. -/
def descResv (w : List W64) : Bool :=
  let g (i : Nat) : W64 := w.getD i 0#64
  clearOf (g 0) (maskOf 52 52 + maskOf 35 35 + maskOf 27 0) && clearOf (g 2) (maskOf 50 48) &&
  clearOf (g 4) (maskOf 30 27 + maskOf 15 0) && clearOf (g 6) (maskOf 46 0) && clearOf (g 7) (maskOf 63 0)

/-- The checks of Table HQ-5 in order, for partition `p`. -/
def State.decodeCheck (s : State) (p : Nat) (w : List W64) (resvOk frame : Bool) : Option Nat :=
  let g (i : Nat) : W64 := w.getD i 0#64
  let w0 := g 0
  let pctr := bits (g 4) 26 16
  let sctx := bits w0 47 36
  if 2 ≤ bits w0 63 56 ∨ resvOk = false then some rIllegalShape
  else if bits w0 63 56 = 0 then none
  else if 64 < bits w0 34 28 ∨ (bit w0 54 = false ∧ (bits w0 51 50 = 3 ∨ bits w0 49 48 = 3)) ∨
      (frame = false ∧ (bits (g 4) 63 32 = 0 ∨ 2 ^ 31 ≤ bits (g 4) 63 32)) then some rIllegalShape
  else if s.inRange p (bits (g 2) 47 0) 256 = false ∧ inHost (bits (g 2) 47 0) 256 = false then some rLengthBounds
  else if (s.part p).nInst ≤ bits (g 2) 63 51 + 1 then some rLengthBounds
  else if bit (g 4) 31 ∧ bits (g 5) 63 32 < bits (g 5) 31 0 then some rLengthBounds
  else if bit (g 4) 31 ∧ 2048 ≤ pctr then some rLengthBounds
  else if bit (g 4) 31 ∧ s.teamPresent (pctr / 256) = false then some rUnitAbsent
  else if bit (g 4) 31 ∧ s.partOfTeam (pctr / 256) ≠ some p then some rPermission
  else if bit w0 54 ∧ ¬ ((s.part p).sctxFirst ≤ sctx ∧ sctx < (s.part p).sctxFirst + (s.part p).sctxCount) then some rPermission
  else none

/-- The descriptor of count `h`, read and decoded. One that cannot be read faults (R27, R31): what its words held, COOKIE
and IRQ among it, is a free value. (DEDUCED, log 40) -/
def State.readDesc (s : State) (r h : Nat) : Desc × State :=
  let a := s.rSQBASE r + 64 * (h % s.rSQ r)
  match s.memBad a 64 with
  | some (x, b) =>
    ({ seq := h, words := [BitVec.ofNat 64 (s.free % 2 * 2 ^ 55), BitVec.ofNat 64 (s.used1.free)], fault := some (x, b) },
     (if x = rUncorrectable then s.logUe b 0xFFFF b else s).used1.used1)
  | none =>
    let w := (List.range 8).map fun i => BitVec.ofNat 64 (s.ldN (a + 8 * i) 8)
    ({ seq := h, words := w, refusal := s.decodeCheck (s.rPART r) w (descResv w) false }, s)

/-- The HQE takes the next published descriptor of a ring, or waits for CQ space or a buffer entry. -/
def execDescriptorTake (r : Nat) (s : State) : Out :=
  if s.phase ≠ .up then .refused .cannotOccur
  else if 16384 ≤ r then .refused .noSuchUnit
  else
    let h := s.getF (rSQHEAD r)
    if s.rEN r = 0 ∨ h = s.getF (rSQTAIL r) then .refused .cannotOccur
    else if s.cqRoomFor r 2 = false then .next (s.setF (rSTALL r) 1)
    else if 16384 ≤ s.descHeld then .next (s.setF (rSTALL r) 0)
    else
      let (d, s) := s.readDesc r h
      .next ((((s.modRing r fun x => { x with taken := x.taken ++ [d], resv := x.resv + 2 }).setF (rSQHEAD r) (h + 1)).setF
        (rSTALL r) 0).setF (rPENDING r) (s.getF (rPENDING r) + 1))

/-- COAL_US has passed since the first record after the last signal. (DEDUCED, log 42) -/
def execCoalesceTimeout (r : Nat) (s : State) : Out :=
  if s.phase ≠ .up then .refused .cannotOccur
  else if 16384 ≤ r then .refused .noSuchUnit
  else if (s.ring r).unsent = 0 ∨ s.getF (ringF r 0 16 16) = 0 then .refused .cannotOccur
  else .next ((s.modRing r fun x => { x with unsent := 0 }).signalVec (s.rOWNER r) (s.rVEC r))

/-! ### Applying a ring's descriptors at the snapshot (R334, R337 to R339) -/

/-- The job that a descriptor or template describes. -/
def jobOf (r p : Nat) (seq : Nat) (w : List W64) : Job :=
  let g (i : Nat) : W64 := w.getD i 0#64
  { part := p, ring := r, seq := seq, cookie := g 1, irq := bit (g 0) 55, strm := bit (g 0) 54, kv := bit (g 0) 53,
    cls := bits (g 0) 51 50, escMode := bits (g 0) 49 48, sctx := bits (g 0) 47 36, ncores := bits (g 0) 34 28,
    entry := bits (g 2) 63 51, argAddr := bits (g 2) 47 0, cost := bits (g 3) 63 32, reserve := bits (g 3) 31 0,
    epoch := bits (g 4) 63 32, pen := bit (g 4) 31, pctr := bits (g 4) 26 16, tlimit := bits (g 5) 63 32,
    tstart := bits (g 5) 31 0, obj0 := if bit (g 6) 47 then some (bits (g 6) 63 48) else none }

/-- Enter a candidate job; its number. -/
def State.newJob (s : State) (j : Job) : State := { s.setJob s.nextJob j with nextJob := s.nextJob + 1 }

/-- The partition's fence is closed, or it is gone: its work completes ABORTED with FENCE (R41). -/
def State.partGone (s : State) (p : Nat) : Bool := !(s.part p).live || (s.fence 5 p).closed

/-- Apply one descriptor. Where its partition is fenced or gone it ends with FENCE (R41), and where its ring is aborted in the
same snapshot with the abort's reason (R351), whatever it asks for. -/
def State.applyDesc (s : State) (r : Nat) (abort : Option Nat) (d : Desc) : State :=
  let j := jobOf r (s.rPART r) d.seq d.words
  let nop := decide (bits (d.words.getD 0 0#64) 63 56 = 0)
  let j0 : Job := if nop then { ring := r, part := s.rPART r, seq := d.seq, cookie := j.cookie, irq := j.irq } else j
  match (if s.partGone (s.rPART r) then some rFence else abort), d.fault, d.refusal with
  | some reason, _, _ => s.plainRecord r j0 oAborted reason
  | none, some (x, a), _ => s.plainRecord r { j0 with firstFault := some { reason := x, obj := 0xFFFF, off := a } } oFaulted x
  | none, none, some reason => (s.addF F.DISP_REFUSED_COUNT 1).plainRecord r j oRefused reason
  | none, none, none => if nop = true ∨ j.ncores = 0 then s.plainRecord r j0 oServed rOK else s.newJob j

/-- The doorbell event of a ring: every descriptor taken before the snapshot, in SQ order. -/
def State.applyRing (s : State) (r : Nat) (abort : Option Nat) : State :=
  let l := (s.ring r).taken
  l.foldl (fun t d => t.applyDesc r abort d) (s.modRing r fun x => { x with taken := [] })

/-- End a job that has not been admitted. -/
def State.abortWaiting (s : State) (r reason : Nat) : State :=
  (s.jobs.filterMap fun e => if e.2.ring = r ∧ e.2.admitted = false then some e.1 else none).foldl
    (fun t i => t.finalRecord i oAborted reason) s

/-- Stop a job's part on logical core `n` from outside: running, it stops as R122 says; not begun, it ends. -/
def State.stopPart (s : State) (i n reason : Nat) : State :=
  match s.slotOf n with
  | none => s
  | some k =>
    let c := s.core k
    if c.job = some i then
      if c.faulted then s
      else (s.stopCore k n { reason := reason, source := 0, cmdcnt := c.cmdcnt, tag := c.ctag, pc := c.pc % 8192 })
    else if i ∈ c.jobQ then (s.modCore k fun c => { c with jobQ := c.jobQ.filter (· ≠ i) }).endUnstarted i n reason
    else s

/-- Every running or admitted job of a ring is stopped. -/
def State.abortRunning (s : State) (r reason : Nat) : State :=
  (s.jobs.filterMap fun e => if e.2.ring = r ∧ e.2.admitted then some e else none).foldl (fun t e =>
    let t1 := t.setJob e.1 { (t.job e.1) with stop := some reason }
    e.2.cores.foldl (fun u n => u.stopPart e.1 n reason) t1) s

/-- Discard the published descriptors that have not been taken: each is to have an ABORTED record. -/
def State.discard (s : State) (r : Nat) : State :=
  let h := s.getF (rSQHEAD r)
  let n := cdiff (s.getF (rSQTAIL r)) h
  let l := (List.range n).map fun i =>
    let q := (h + i) % 2 ^ 32
    let a := s.rSQBASE r + 64 * (q % s.rSQ r)
    (q, BitVec.ofNat 64 (s.ldN (a + 8) 8), decide (s.ldN a 8 / 2 ^ 55 % 2 = 1))
  ((s.modRing r fun x => { x with dropped := x.dropped ++ l }).setF (rPENDING r) (s.getF (rPENDING r) + n)).setF (rSQHEAD r)
    (s.getF (rSQTAIL r))

/-- Apply an abort of a ring (R338). -/
def State.abortRing (s : State) (r reason : Nat) : State :=
  if s.rEN r = 0 then s
  else
    let s1 := ((s.setF (rABORTING r) 1).abortWaiting r reason).abortRunning r reason
    let s2 := (s1.discard r).modRing r fun x => { x with dropReason := reason }
    let s3 := (s2.flushDropped r (s2.ring r).dropped.length).setF (rSTALL r) 0
    if s3.getF (rPENDING r) = 0 then s3.setF (rABORTING r) 0 else s3

/-! ### Enabling a ring (R329, R330) -/

/-- The port may write the ring's entry. -/
def State.ringPort (s : State) (port : Port) (r : Nat) : Bool :=
  match port with
  | .vf v => (s.vfPart v).isSome && s.rOWNER r == v
  | .mgmt => false
  | _ => true

/-- The upper half of word 0 as a port's write leaves it: OWNER and PART are the PF's, bit 30 and [10:5] are reserved. -/
def State.ringWord (s : State) (port : Port) (r : Nat) (w : W32) : W32 :=
  if port = .pf then w
  else withField (withField w 24 6 (s.rOWNER r)) 21 3 (s.rPART r)

/-- The checks of a ring entry at its enable (R330). (DEDUCED, log 98) -/
def State.entryOk (s : State) (r : Nat) (w : W32) : Bool :=
  let sq := fieldOf w 16 5
  let cq := fieldOf w 11 5
  let own := fieldOf w 24 6
  let p := fieldOf w 21 3
  let okA (a len : Nat) : Bool := decide (a % 4096 = 0) && (s.inRange p a len || inHost a len)
  decide (6 ≤ sq ∧ sq ≤ 16 ∧ 6 ≤ cq ∧ cq ≤ 16 ∧ fieldOf w 30 1 = 0 ∧ fieldOf w 5 6 = 0 ∧ s.getF (ringF r 3 16 16) = 0 ∧
    s.getF (ringF r 5 16 16) = 0) && (own == 0 || decide (s.vfPart own = some p)) && okA (s.rSQBASE r) (64 * 2 ^ sq) &&
    okA (s.rCQBASE r) (64 * 2 ^ cq)

/-- Apply a doorbell write that was latched behind the enable. -/
def State.earlyApply (r : Nat) (s : State) (e : Nat × W32) : State :=
  match e.1 with
  | 0 => s.dbTail r e.2
  | 1 => s.dbHead r e.2
  | _ => if e.2.toNat % 2 = 1 then s.abortRing r 0x22 else s

/-- Apply a write that sets EN, and then the ring's doorbells that waited behind it; a refused one leaves them to a disabled
ring. -/
def State.applyEnable (s : State) (r : Nat) (w : W32) : State :=
  let l := (s.ring r).early
  if s.rEN r = 1 then s
  else if s.entryOk r w = false then
    ((s.modRing r fun x => { x with early := [] }).addF F.HQE_DB_IGNORED_COUNT l.length).raise F.HQE_STATUS_WRITE_REJECT
  else
    let s1 := (s.wr (0x100000 + 64 * r + 4) w).modRing r fun _ => {}
    l.foldl (State.earlyApply r) ([rSQHEAD r, rSQTAIL r, rCQHEAD r, rCQTAIL r, rSTALL r].foldl (fun t f => t.setF f 0) s1)

def execRingEnable (port : Port) (r : Nat) (w : W32) (s : State) : Out :=
  if s.phase ≠ .up then unreached s
  else if 16384 ≤ r then .refused .noSuchUnit
  else if s.ringPort port r = false then .next (s.denied port)
  else
    let w1 := s.ringWord port r (w ||| 0x80000000#32)
    if s.rEN r = 0 then .next (s.latch (.ringEnable r w1))
    else if withField w1 0 5 0 ≠ withField (s.rd (0x100000 + 64 * r + 4)) 0 5 0 then .next (s.raise F.HQE_STATUS_WRITE_REJECT)
    else .next (s.wr (0x100000 + 64 * r + 4) w1)

/-- A write that clears EN is accepted while nothing of the ring is pending; other locked fields keep. -/
def execRingDisable (port : Port) (r : Nat) (w : W32) (s : State) : Out :=
  if s.phase ≠ .up then unreached s
  else if 16384 ≤ r then .refused .noSuchUnit
  else if s.ringPort port r = false then .next (s.denied port)
  else
    let w1 := withField (s.ringWord port r w) 31 1 0
    let old := s.rd (0x100000 + 64 * r + 4)
    if s.rEN r = 0 then .next (s.wr (0x100000 + 64 * r + 4) w1)
    else if s.getF (rPENDING r) ≠ 0 ∨ s.getF (rABORTING r) ≠ 0 ∨
        withField w1 0 5 0 ≠ withField (withField old 31 1 0) 0 5 0 then .next (s.raise F.HQE_STATUS_WRITE_REJECT)
    else .next ((s.wr (0x100000 + 64 * r + 4) w1).setF (rSTALL r) 0)

/-- An FLR of a VF aborts every ring of the VF with FENCE; its TDI, when RUN, moves to ERROR (R338, R425).
(DEDUCED, log 39) -/
def execVfFlr (v : Nat) (s : State) : Out :=
  if s.phase ≠ .up then unreached s
  else if v = 0 ∨ 64 ≤ v then .refused .noSuchUnit
  else
    let rs := (s.regs.filterMap fun e => if 0x100000 ≤ e.1 ∧ e.1 < 0x200000 ∧ e.1 % 64 = 4 then some ((e.1 - 0x100000) / 64) else none).filter
      fun r => s.rEN r == 1 && s.rOWNER r == v
    let s1 := rs.foldl (fun t r => t.latch (.ringAbort r rFence)) s
    .next { s1 with tdis := if tget tdi0 s.tdis v = 0 then s1.tdis else tset tdi0 s1.tdis v 3 }

/-! ### Program loads (R91 to R96) -/

/-- A header field of the image at an address. -/
def State.img (s : State) (a off n : Nat) : Nat := s.ldN (a + off) n

def align64 (n : Nat) : Nat := (n + 63) / 64 * 64

/-- Bytes of the image's sections (R93); `nc` is the number of blocks of a PERCORE static area. -/
def imageNeed (ninst nbund static nc : Nat) : Nat := 512 + align64 (8 * ninst) + align64 (16 * nbund) + nc * static

def cqSplitOk (w : W64) : Bool :=
  let d (i : Nat) : Nat := bits w (8 * i + 7) (8 * i)
  clearOf w (maskOf 63 40) && ([0, 1, 2, 3, 4].all fun i => decide (4 ≤ d i ∧ d i ≤ 128)) &&
    decide (d 0 + d 1 + d 2 + d 3 + d 4 ≤ 152)

def State.imgQ (s : State) (a q : Nat) : W64 := BitVec.ofNat 64 (s.img a (0x80 + 8 * q) 8)

/-- A place in the arena for the copy of R95, with the present copy released. -/
def State.copySpot (s : State) (p len : Nat) : Option Nat :=
  let used := (s.objsOf p).flatMap fun e => e.2.homes
  spot used (s.arenaBase p + s.segMap p) (s.arenaBase p + s.arenaSize p) (ceilTo len 0x10000)

/-- The reason that refuses a program load of partition `p`, in the order of R94. -/
def State.ploadCheck (s : State) (p a : Nat) : Option Nat :=
  let x := s.part p
  let teams := partTeams x
  let ninst := s.img a 8 4
  let nbund := s.img a 12 4
  let static := s.img a 16 4
  let argoff := s.img a 20 4
  let percore := s.img a 6 2 % 2 = 1
  let um := s.img a 0x20 8
  let nc := if percore then 8 * teams.length else 1
  let zero (off n : Nat) : Bool := (s.ldBytes (a + off) n).all (· == 0)
  if x.live = false ∨ s.tdiLocked p ∨ (s.coresOf p).any (fun n => match s.slotOf n with
      | some k => !s.coreIdle k n
      | none => false) ∨ s.jobs.any (fun e => e.2.part == p && e.2.admitted) then some rPermission
  else if s.inRange p a 512 = false ∨ s.inRange p a (s.img a 0x28 4) = false ∨
      s.img a 0x28 4 < imageNeed ninst nbund static nc then some rLengthBounds
  else if s.img a 0 4 ≠ 0x4C4E4F58 ∨ s.img a 4 2 ≠ 1 ∨ 2 ≤ s.img a 6 2 ∨ zero 0x2C 84 = false ∨ zero 0x180 128 = false ∨
      4 ≤ um ∨ ninst = 0 ∨ 8192 < ninst ∨ 2048 < nbund ∨ static % 64 ≠ 0 ∨ static < 256 ∨ 0x180000 < static ∨
      argoff % 64 ≠ 0 ∨ static < argoff + 256 ∨ cqSplitOk (BitVec.ofNat 64 (s.img a 0x18 8)) = false ∨
      (List.range 32).any (fun q => match qcfgCheck (s.imgQ a q) q (2 ^ 64) with
        | some (r, _) => r != rLengthBounds
        | none => false) then some rIllegalShape
  else if (List.range 32).any (fun q => (qcfgCheck (s.imgQ a q) q static).isSome) then some rLengthBounds
  else if (um % 2 = 1 ∧ teams.any (fun t => !s.edgePresent t)) ∨ (um / 2 = 1 ∧ teams.any (fun t => !s.fftPresent t)) then some rUnitAbsent
  else if (s.copySpot p (nc * static)).isNone then some rStoreOverflow
  else none

/-- A table of words read from memory, from entry `i` on. -/
def State.readWords (s : State) (a : Nat) : Nat → Nat → Tbl W64 → Tbl W64
  | 0, _, t => t
  | n + 1, i, t => s.readWords a n (i + 1) (tset sreg0 t i (BitVec.ofNat 64 (s.ldN (a + 8 * i) 8)))

def vim0 : Nat → BitVec 128 := fun _ => 0#128

def State.readBundles (s : State) (a : Nat) : Nat → Nat → Tbl (BitVec 128) → Tbl (BitVec 128)
  | 0, _, t => t
  | n + 1, i, t => s.readBundles a n (i + 1) (tset vim0 t i (BitVec.ofNat 128 (s.ldN (a + 16 * i) 16)))

/-- Load one physical core of the partition. -/
def State.ploadCore (s : State) (a k : Nat) : State :=
  let ninst := s.img a 8 4
  let nbund := s.img a 12 4
  let qs := (List.range 32).foldl (fun t q => tset queue0 t q (queueOf (s.imgQ a q))) ([] : Tbl Queue)
  s.modCore k fun c => { c with
    bad := c.bad.filter (fun e => e.1 ≠ 3 ∧ (e.1 ≠ 4 ∨ 65536 ≤ e.2)),
    istore := s.readWords (a + 512) ninst 0 [], vim := s.readBundles (a + 512 + align64 (8 * ninst)) nbund 0 [],
    nInst := ninst, nBund := nbund, vec := {}, queues := qs, split := BitVec.ofNat 64 (s.img a 0x18 8),
    unitMask := BitVec.ofNat 64 (s.img a 0x20 8), staticSize := s.img a 16 4, argOff := s.img a 20 4 }

/-- Apply DISP_PLOAD_CMD LOAD at the snapshot: the address is the one that DISP_PLOAD_ADDR then holds, and a command behind one
that the same snapshot accepted is ignored. (DESIGN CHOICE, log 25) -/
def State.ploadApply (s : State) (p : Nat) : State :=
  let a := s.getF F.DISP_PLOAD_ADDR_HI_ADDR * 2 ^ 32 + s.getF F.DISP_PLOAD_ADDR_LO_ADDR * 64
  let set (t : State) (st r : Nat) : State :=
    ((t.setF F.DISP_PLOAD_STATUS_STATE st).setF F.DISP_PLOAD_STATUS_PART p).setF F.DISP_PLOAD_STATUS_REASON r
  if s.getF F.DISP_PLOAD_STATUS_STATE = 1 then s.raise F.DISP_PLOAD_STATUS_WRITE_REJECT
  else match s.ploadCheck p a with
  | some r => set s 3 r
  | none =>
    let teams := partTeams (s.part p)
    let static := s.img a 16 4
    let percore := s.img a 6 2 % 2 = 1
    let nc := if percore then 8 * teams.length else 1
    let body := a + 512 + align64 (8 * s.img a 8 4) + align64 (16 * s.img a 12 4)
    let s0 := { s with copies := tset copy0 s.copies p ((s.copySpot p (nc * static)).getD 0, nc * static) }
    let s1 := s0.stBytes (tget copy0 s0.copies p).1 (s.ldBytes body (nc * static))
    let s2 := teams.foldl (fun t tm => (List.range 9).foldl (fun u i => u.ploadCore a (9 * tm + i)) (t.reachTeam tm)) s1
    let ns := teams.flatMap fun tm => (List.range 8).map fun i => 8 * tm + i
    let s3 := (numbered 0 ns).foldl (fun t e => if (s.slotOf e.2).isSome then
        t.wrStore e.2 0 (s.ldBytes (body + (if percore then e.1 * static else 0)) static) else t) s2
    set { s3 with parts := tset part0 s3.parts p { (s3.part p) with nInst := s.img a 8 4, loading := true } } 1 0

/-- DISP_PLOAD_CMD with OP LOAD. -/
def execProgramLoad (port : Port) (p : Nat) (s : State) : Out :=
  hostWrite port s fun s =>
    if s.getF F.DISP_PLOAD_STATUS_STATE = 1 then s.raise F.DISP_PLOAD_STATUS_WRITE_REJECT
    else s.latch (.pload (p % 8))

/-- The bytes over which R420 takes the program digest. -/
def State.programBytes (s : State) (p : Nat) : List Nat :=
  ((List.range 64).filter fun n => decide ((s.part p).teams / 2 ^ (n / 8) % 2 = 1)).flatMap fun n =>
    match s.slotOf n with
    | none => []
    | some k =>
      let c := s.core k
      ((List.range c.nInst).flatMap fun i => leBytes 8 (tget sreg0 c.istore i).toNat) ++
      ((List.range c.nBund).flatMap fun i => leBytes 16 (tget vim0 c.vim i).toNat) ++ s.ldBytes (storeBase n) c.staticSize ++
      ((List.range 32).flatMap fun q => leBytes 8 (descWord (c.queue q))) ++ leBytes 8 c.split.toNat ++ leBytes 8 c.unitMask.toNat
where
  descWord (q : Queue) : Nat := q.depth * 2 ^ 48 + q.esize * 2 ^ 45 + (if q.zc then 2 ^ 44 else 0) + q.base

/-- The measurement of R420 is recorded and the load is COMPLETE. (DESIGN CHOICE, log 25) -/
def execProgramLoadComplete (s : State) : Out :=
  if s.phase ≠ .up then .refused .cannotOccur
  else if s.getF F.DISP_PLOAD_STATUS_STATE ≠ 1 then .refused .cannotOccur
  else
    let p := s.getF F.DISP_PLOAD_STATUS_PART
    let x := s.part p
    let d := Config.shake256 64 (s.programBytes p)
    let chain := Config.shake256 64 (leBytes 64 x.progChain ++ leBytes 64 d)
    let x' : Part := { x with loading := false, progCurrent := d, progChain := chain, progLoads := x.progLoads + 1 }
    .next ({ s with parts := tset part0 s.parts p x' }.setF F.DISP_PLOAD_STATUS_STATE 2)

/-! ### Gating and waking of Teams (R82 to R85) -/

/-- Gating does not keep the scalar registers and the program counter of a core: free values (R83).
(DEDUCED, log 28) -/
def State.gateCore (s : State) (k : Nat) : State :=
  { s.modCore k fun c => { c with
      sregs := (List.range 31).foldl (fun m i => tset sreg0 m (i + 1) (BitVec.ofNat 64 (Config.freeNat (s.fresh + i)))) [],
      pc := Config.freeNat (s.fresh + 31) % 8192 } with fresh := s.fresh + 32 }

/-- Gating has completed; where a request waits, the Team wakes at once. -/
def execGatingComplete (t : Nat) (s : State) : Out :=
  if s.phase ≠ .up then .refused .cannotOccur
  else if s.teamPresent t = false then .refused .noSuchUnit
  else if s.getF (F.TEAM_PWR_STATUS_STATE t) ≠ 3 then .refused .cannotOccur
  else
    let u := (List.range 9).foldl (fun v i => v.gateCore (9 * t + i)) s
    if (s.team t).heldReq then .next ((u.setF (F.TEAM_PWR_STATUS_STATE t) 2).addF (F.TEAM_WAKE_COUNT_COUNT t) 1)
    else .next (u.setF (F.TEAM_PWR_STATUS_STATE t) 1)

/-- A request reaches a gated Team: it is held, and the Team wakes; while gating, it only waits. -/
def execTeamWake (t : Nat) (s : State) : Out :=
  if s.phase ≠ .up then .refused .cannotOccur
  else if s.teamPresent t = false then .refused .noSuchUnit
  else
    let st := s.getF (F.TEAM_PWR_STATUS_STATE t)
    if st = 1 then .next (((s.reachTeam t).setF (F.TEAM_PWR_STATUS_STATE t) 2).addF (F.TEAM_WAKE_COUNT_COUNT t) 1)
    else if st = 3 then .next (s.reachTeam t)
    else .refused .cannotOccur

end Sys2Proof.Machine
end

