-- ==== Sys2Proof/Machine/Ras.lean ====
section
/-!
DEFINITION. Fences, fence reports, resets of domains, retirement of cores and the RAS
commands (R60, R281, R466 to R469, R477).
-/
namespace Sys2Proof.Machine

/-! ### Causes (Table RL-3) -/

def causeReset : Nat := 0
def causeRetire : Nat := 1
def causePart : Nat := 2
def causeFailure : Nat := 3
def causeAudit : Nat := 4
def causeSleep : Nat := 5
def causeDevice : Nat := 6

/-- What a closure reclaims, as its report counts it. -/
structure Reclaim where
  queue : Nat := 0
  sems : Nat := 0
  signals : Nat := 0
  fabCredits : Nat := 0
  kvPages : Nat := 0
  jobs : Nat := 0
  descs : Nat := 0
deriving DecidableEq, Repr

/-- A fence report by dword (Table RL-3). The numbers of requests, replies and network credits are free: the model holds no
requests on their way. (DESIGN CHOICE, log 45) -/
def State.reportWords (s : State) (dtype inst cause : Nat) (failed : Bool) (x : Reclaim) : List W32 :=
  let f (i : Nat) : Nat := Config.freeNat (s.fresh + i) % 2 ^ 32
  [s.tick % 2 ^ 32, dtype * 2 ^ 28 + inst % 256 * 2 ^ 20 + cause * 2 ^ 16 + (if failed then 1 else 0), f 1, f 0, x.queue, f 2,
   x.signals, x.sems, x.kvPages, x.fabCredits, x.descs, x.jobs, 0, 0, 0, 0].map (BitVec.ofNat 32)

/-- A fence report waits for the next snapshot (R42). (DESIGN CHOICE, log 45) -/
def State.fenceReport (s : State) (dtype inst cause : Nat) (failed : Bool) (x : Reclaim) : State :=
  { s with fresh := s.fresh + 3 }.latch (.fenceReport dtype inst (s.reportWords dtype inst cause failed x))

/-- The snapshot records a report in the next entry of the log, and signals the PF's vector (R469). -/
def State.recordReport (s : State) (dtype inst : Nat) (ws : List W32) : State :=
  let e := s.getF F.RAS_LOG_STATUS_NEXT
  let s1 := (numbered 0 ws).foldl (fun (u : State) w => u.wr (0x801000 + 64 * e + 4 * w.1) w.2) s
  let s2 := (s1.setF F.RAS_LOG_STATUS_NEXT ((e + 1) % 16)).addF F.RAS_LOG_STATUS_TOTAL 1
  (s2.setFence dtype inst { s2.fence dtype inst with report := some e }).signalVec 0 (s2.getF F.RAS_CTRL_VEC)

/-- Close a fence that is open; its report follows. A second FAILURE within one window of 1,024 ticks is
final. -/
def State.shut (s : State) (dtype inst cause : Nat) (x : Reclaim) : State :=
  let f := s.fence dtype inst
  let fail := decide (cause = causeFailure)
  let failed := f.failed || (fail && decide (f.lastFail.map (· / 1024) = some (s.tick / 1024)))
  (s.fenceReport dtype inst cause failed x).setFence dtype inst
    { closed := true, failed := failed, report := none, lastFail := if fail then some s.tick else f.lastFail }

/-! ### A tensor core -/

def sumTbl (t : Tbl Nat) : Nat := (t.map (·.2)).foldl (· + ·) 0

/-- Abort the append groups that core `n` opened (R246). -/
def State.abortGroups (s : State) (p n : Nat) : State :=
  (List.range (s.getF (F.KVA_CTX_RANGE_COUNT p))).foldl (fun t i =>
    let c := t.kvRead p (t.kvFirst p + i)
    if c.pend ∧ c.pcore = n then t.kvAbort p (t.kvFirst p + i) else t) s

/-- Forget the core in what FREE waits for: none of its older commands is left. -/
def State.forgetCore (s : State) (n : Nat) : State :=
  { s with objs := s.objs.map fun e => (e.1, { e.2 with freeing := e.2.freeing.filter fun f => f.1 ≠ n }) }

/-- End every job's part on a core from outside. A part whose own work had faulted ends FAULTED. -/
def State.endCoreJobs (s : State) (k n reason : Nat) : State :=
  let c := s.core k
  let s1 := if c.faulted ∧ outsideStop c.fault.reason = false then s.endPart k n false none else s.endPart k n false (some reason)
  c.jobQ.foldl (fun t i => if c.job = some i then t else t.endUnstarted i n reason) (s1.modCore k fun c => { c with jobQ := [] })

/-- Jobs with a part on a core. -/
def Core.jobCount (c : Core) : Nat := c.jobQ.length + (if c.job.isSome then 1 else 0)

/-- Close the fence of logical core `n` and reset the core that holds the number: its memories, registers,
queues and semaphores are cleared. -/
def State.closeCore (s : State) (n cause : Nat) : State :=
  match s.slotOf n with
  | none => s
  | some k =>
    if s.coreFenced n then s
    else
      let c := s.core k
      let x : Reclaim := { queue := (c.queues.map fun e => e.2.els.length).foldl (· + ·) 0, sems := sumTbl c.sems,
                           signals := (s.sigs.filter fun g => g.src == n).length, jobs := c.jobCount }
      let s1 := (s.endCoreJobs k n rFence).abortGroups (s.partOf n) n
      let s2 := { s1.modTeam (k / 9) (fun t => { t.dropCore n with
          actE := if t.actE.any (fun a => a.cmd.core == n) then none else t.actE,
          actF := if t.actF.any (fun a => a.cmd.core == n) then none else t.actF }) with
        sigs := s1.sigs.filter fun g => g.src != n, outcomes := s1.outcomes.filter fun g => g.src != n }
      let s3 := ((s2.setCore k { retired := c.retired, retirePending := c.retirePending }).forgetCore n).zeroMem
        (storeBase n) (storeBase n + storeSize)
      let s4 := { s3 with regs := tclear (slotBase k) (slotBase k + 0x40000) s3.regs,
                          ue := s3.ue.filter fun e => !decide (storeBase n ≤ e.1 ∧ e.1 < storeBase (n + 1)) }
      s4.shut 0 n cause x

/-! ### A Pool slice and a Team -/

def State.closeSlice (s : State) (t cause : Nat) : State :=
  if s.teamPresent t = false ∨ (s.fence 2 t).closed then s
  else
    let s1 := s.zeroMem (poolBase t) (poolBase (t + 1))
    ({ s1 with ue := s1.ue.filter fun e => !decide (poolBase t ≤ e.1 ∧ e.1 < poolBase (t + 1)) }.shut 2 t cause {}).latch (.sliceLost t)

/-- A Team fence also closes the fences of its cores and its slice. (DESIGN CHOICE, log 45) -/
def State.closeTeam (s : State) (t cause : Nat) : State :=
  if s.teamPresent t = false ∨ (s.fence 1 t).closed then s
  else
    let s1 := (List.range 8).foldl (fun u i => u.closeCore (8 * t + i) cause) s
    let s2 := (s1.closeSlice t cause).setTeam t {}
    let s3 := { s2 with regs := tclear (teamBase t) (teamBase t + 0x40000) s2.regs }
    s3.shut 1 t cause { queue := (s.team t).eq.length + (s.team t).fq.length }

/-! ### A partition -/

/-- Jobs of a partition that have not been admitted end ABORTED. -/
def State.abortPartWaiting (s : State) (p reason : Nat) : State :=
  (s.jobs.filterMap fun e => if e.2.part = p ∧ e.2.admitted = false then some e.1 else none).foldl
    (fun t i => t.finalRecord i oAborted reason) s

/-- Pages that a partition's KV contexts hold. (DESIGN CHOICE, log 45) -/
def State.closePart (s : State) (p cause : Nat) : State :=
  if (s.fence 5 p).closed then s
  else
    let jobs := (s.jobs.filter fun e => e.2.part == p).length
    let waiting := (s.jobs.filter fun e => e.2.part == p && !e.2.admitted).length
    let s1 := (partTeams (s.part p)).foldl (fun u t => u.closeTeam t cause) (s.abortPartWaiting p rFence)
    s1.shut 5 p cause { jobs := jobs, descs := waiting }

/-! ### Retirement and the spare (R60, R281, R466) -/

/-- The block of a partition's static copy that belongs to a logical core. -/
def State.copyBlock (s : State) (p n static : Nat) : List Nat :=
  let c := tget copy0 s.copies p
  let i := ((List.range 64).filter fun m => decide ((s.part p).teams / 2 ^ (m / 8) % 2 = 1 ∧ m < n)).length
  if c.2 = 0 then [] else s.ldBytes (c.1 + (if c.2 ≤ static then 0 else i * static)) static

/-- The spare of slot `k` takes logical number `n` and is prepared. -/
def State.prepareSpare (s : State) (k n : Nat) : State :=
  let p := s.partOf n
  let c := s.core k
  let s1 := s.stBytes (storeBase n) (s.copyBlock p n c.staticSize)
  s1.modCore k fun c => { c with
    storeTop := c.staticSize, queues := c.queues.map fun e => (e.1, { e.2 with head := 0, els := [] }), sems := [],
    handles := [], intHandles := [], crs := [], excess := c.excess + 64 + (c.staticSize + 127) / 128 }

/-- Retire logical core `n`: its fence closes with cause RETIRE, and the Team's spare takes the number where
there is one; otherwise the number becomes absent. -/
def State.retireCore (s : State) (n : Nat) : State :=
  match s.slotOf n with
  | none => s
  | some k =>
    let sp := 9 * (k / 9) + 8
    let s1 := (s.closeCore n causeRetire).modCore k fun c => { c with retired := true, retirePending := false }
    let held := (List.range 64).any fun m => decide (s.slotOf m = some sp)
    if k ≠ sp ∧ held = false ∧ (s.core sp).retired = false then
      ((s1.setF (F.RAS_LMAP_SLOT n) 8).setFence 0 n { report := (s1.fence 0 n).report }).prepareSpare sp n
    else s1.setF (F.RAS_LMAP_PRESENT n) 0

/-- Cores that a persistent mismatch or too many transients retire at the edge: events of class 2, by domain (R38, R466). -/
def State.retiring (s : State) : List Ev :=
  ((List.range 64).filter fun n => match s.slotOf n with
    | some k => (s.core k).retirePending
    | none => false).map Ev.retire

/-- The core retires, where nothing before has retired it. -/
def State.retireApply (s : State) (n : Nat) : State :=
  match s.slotOf n with
  | some k => if (s.core k).retirePending then s.retireCore n else s
  | none => s

/-! ### Reopening (R468) -/

/-- A closed fence whose reset time has passed reopens at an edge, unless it is FAILED or its core retired;
a partition's fence opens when its scrub completes, or at an edge when it was only reset. -/
def State.reopen (s : State) (busy : List (Nat × Nat)) : State :=
  { s with fences := s.fences.filterMap fun e =>
      let d := e.1 / 256
      let i := e.1 % 256
      if e.2.closed ∧ e.2.failed = false ∧ (d, i) ∉ busy ∧ ¬ (d = 5 ∧ (s.part i).scrub = true) then
        some (e.1, { e.2 with closed := false })
      else some e }

/-! ### RAS_CMD (R477) -/

/-- The instance exists for its DTYPE. -/
def State.domainPresent (s : State) (dtype inst : Nat) : Bool :=
  match dtype with
  | 0 => (s.slotOf inst).isSome
  | 1 => s.teamPresent inst
  | 2 => s.teamPresent inst
  | 3 => decide (inst < 4 ∧ s.getF F.GLB_CAP_VIDEO_DEC_PRESENT / 2 ^ (4 * inst) % 16 ≠ 0)
  | 4 => decide (inst < 4)
  | 5 => (s.part inst).live
  | _ => true

/-- The reason that refuses an applied RAS_CMD. -/
def State.rasRefusal (s : State) (op dtype inst : Nat) : Option Nat :=
  if dtype = 6 ∨ (op ≠ 1 ∧ dtype ≠ 0) then some rIllegalShape
  else if dtype = 7 then none
  else if s.domainPresent dtype inst = false then some rUnitAbsent
  else if (s.fence dtype inst).failed then some rPermission
  else if op = 1 ∧ (s.fence dtype inst).closed then some rFence
  else none

def State.rasResult (s : State) (st r : Nat) : State :=
  (s.setF F.RAS_CMD_RESULT_STATE st).setF F.RAS_CMD_RESULT_REASON r

/-- A write of RAS_CMD: from the PF or the DRT, and RESET from management as well. -/
def rasCmd (op : Nat) (port : Port) (dtype inst : Nat) (s : State) : Out :=
  if s.phase ≠ .up then unreached s
  else if portHost port ∨ (op = 1 ∧ port = .mgmt) then .next (s.latch (.rasCmd op (dtype % 8) (inst % 256)))
  else .next (s.denied port)

def execRasReset (port : Port) (dtype inst : Nat) (s : State) : Out := rasCmd 1 port dtype inst s
def execRasRetire (port : Port) (dtype inst : Nat) (s : State) : Out := rasCmd 2 port dtype inst s
def execRasInject (port : Port) (dtype inst : Nat) (s : State) : Out := rasCmd 3 port dtype inst s

/-- An FLR of the PF is a device reset request, applied in class 2. -/
def execPfFlr (s : State) : Out :=
  if s.phase ≠ .up then unreached s else .next (s.latch .deviceReset)

end Sys2Proof.Machine
end

