-- ==== Sys2Proof/Machine/Rein.lean ====
section
/-!
DEFINITION. Power, droop and thermal control: the gait, the frequency limits, throttle reasons, the Rein
controller, supply monitoring, adaptive voltage, Curb and the thermal block (R433 to R458), and the tick
budget that follows from the frequency (R44). Frequencies are in MHz, times in ns, powers in mW. What a
sensor, a regulator or a detector reads is an operand.
-/
namespace Sys2Proof.Machine

/-! ### Gaits (Table PW-1) -/

def gaitMhz (g : Nat) : Nat := [600, 800, 1000, 1150].getD g 1150
def gaitSust (g : Nat) : Nat := [140, 190, 250, 310].getD g 310
def gaitFast (g : Nat) : Nat := [168, 228, 300, 372].getD g 372
def gaitMargin (g : Nat) : Nat := [25, 25, 25, 15].getD g 15

/-- The lowest ACLK. -/
def fMin : Nat := 400

def State.gait (s : State) : Nat := s.getF F.REIN_GAIT_GAIT
def State.gaitF (s : State) : Nat := gaitMhz s.gait
/-- The power limits in force, in mW (R434). -/
def State.plSust (s : State) : Nat := 1000 * min (gaitSust s.gait) (s.getF F.REIN_PL_SUST_W)
def State.plFast (s : State) : Nat := 1000 * min (gaitFast s.gait) (s.getF F.REIN_PL_FAST_W)

def State.inJob (s : State) : Bool := s.flag F.PACE_CTRL_JOB_LOCK

/-- The scheduled frequency (R437). -/
def State.schedF (s : State) : Nat :=
  if s.inJob then s.getF F.FAB_JOB_FREQ_FJOB else min s.gaitF (s.getF F.REIN_HOST_LIMIT_MHZ)

/-- The lower of a frequency and a limit. -/
def capF (f : Nat) (l : Option Nat) : Nat :=
  match l with
  | some x => min f x
  | none => f

/-- F_therm, held at or belowF 600 MHz while two or more sensors are invalid (R451). -/
def State.thermF (s : State) : Option Nat :=
  if s.flag F.THERM_STATUS_MULTI_FAIL then some (capF 600 s.rein.fTherm) else s.rein.fTherm

/-- A frequency under every protective limit. -/
def State.limited (s : State) (f : Nat) : Nat :=
  max fMin (capF (capF (capF (capF f s.rein.fSust) s.rein.fFast) s.thermF) s.rein.fSupply)

/-- The running ACLK (R437). -/
def State.runF (s : State) : Nat := s.limited s.rein.sched
/-- The allowed frequency that a member reports (R372, R437). -/
def State.allowedF (s : State) : Nat := s.limited (min s.gaitF (s.getF F.REIN_HOST_LIMIT_MHZ))

/-- The tick budget at a frequency (R44). -/
def budgetAt (tp f : Nat) : Nat := tp * f * 49 / 50

/-- b_sched of R344. -/
def State.bSched (s : State) : Nat := budgetAt s.pace.tp s.schedF

/-! ### Throttle reasons (R439, Table PW-2) -/

def belowF (l : Option Nat) (f : Nat) : Bool :=
  match l with
  | some x => decide (x < f)
  | none => false

def State.reasons (s : State) : List Bool :=
  let f := s.schedF
  [belowF s.rein.fSust f, belowF s.rein.fFast f, belowF s.thermF f, decide (s.rein.stretch ≠ []), belowF s.rein.fSupply f,
   s.inJob && decide (s.getF F.FAB_JOB_FREQ_FJOB < s.allowedF), decide (s.getF F.REIN_HOST_LIMIT_MHZ < s.gaitF), s.rein.ramp]

def maskOfFlags : List Bool → Nat
  | [] => 0
  | b :: l => (if b then 1 else 0) + 2 * maskOfFlags l

def State.setRein (s : State) (f : Rein → Rein) : State := { s with rein := f s.rein }

/-- Count the time up to `now` for every reason in force. (DEDUCED, log 48) -/
def State.accrue (s : State) (now : Nat) : State :=
  s.setRein fun r =>
    let dt := now - r.now
    { r with now := max now r.now,
             durs := (List.range 8).foldl (fun t i => if r.mask / 2 ^ i % 2 = 1 then tmod nat0 t i (· + dt) else t) r.durs }

/-- Bring the running frequency, the reasons in force and the registers that show them up to date. A raise
of the scheduled frequency waits for the voltage; a fall acts at once (R438). -/
def State.retune (s : State) (now : Nat) : State :=
  let s1 := s.accrue now
  let f := s1.schedF
  let s2 := s1.setRein fun r => if r.sched < f then { r with ramp := true } else { r with sched := f, ramp := false }
  let m := maskOfFlags s2.reasons
  let s3 := s2.setRein fun r => { r with
    mask := m, inTick := r.inTick ||| m,
    counts := (List.range 8).foldl (fun t i => if m / 2 ^ i % 2 = 1 ∧ r.mask / 2 ^ i % 2 = 0 then tmod nat0 t i (· + 1) else t) r.counts }
  let s4 := (s3.setF F.REIN_FREQ_RUN s3.runF).setF F.REIN_STATUS_REASONS m
  s4.setF F.THERM_STATUS_THROTTLING (m / 4 % 2)

/-- The allowed frequency that the device reports moves at a snapshot (R42). -/
def State.showAllowed (s : State) : State := s.setF F.REIN_FREQ_ALLOWED s.allowedF

/-- Counts and durations are published at the snapshot (R42, R439); the cycles lost to Curb too (R449). -/
def State.publishPower (s : State) : State :=
  let s1 := (List.range 8).foldl (fun t i =>
    let us := tget nat0 t.rein.durs i / 1000
    ((t.setF (F.REIN_TR_COUNT_COUNT i) (min (tget nat0 t.rein.counts i) (2 ^ 32 - 1))).setF (F.REIN_TR_US_LO_US i) (us % 2 ^ 32)).setF
      (F.REIN_TR_US_HI_US i) (us / 2 ^ 32)) s
  let s2 := (List.range 8).foldl (fun t i => t.setF (F.CURB_LOST_T_CYCLES i) (tget nat0 t.rein.lost i)) s1
  ((s2.setF F.CURB_LOST_U_CYCLES (tget nat0 s2.rein.lost 8)).setRein fun r => { r with lost := [] }).showAllowed

/-! ### Writes of the gait and the limits (R435, R436) -/

def inRng (lo hi v : Nat) : Bool := decide (lo ≤ v ∧ v ≤ hi)

/-- A value with each named field put back to what it holds where the new value lies outside its range. -/
def State.keep (s : State) (l : List (Fld × Nat × Nat)) (v : W32) : W32 :=
  l.foldl (fun (t : W32) (x : Fld × Nat × Nat) => if inRng x.2.1 x.2.2 (newF v x.1) then t else withField t x.1.lo x.1.width (s.getF x.1)) v

/-- Apply a write of REIN_GAIT, REIN_PL_SUST, REIN_PL_FAST, REIN_WINDOW or REIN_HOST_LIMIT at the snapshot. -/
def State.reinApply (s : State) (off : Nat) (v : W32) : State :=
  let put (f : Fld) (lo hi x : Nat) : State :=
    if inRng lo hi (newF v f) then s.setF f x else s.raise F.REIN_STATUS_WRITE_REJECT
  match off with
  | 0x20000 =>
    if newF v F.REIN_GAIT_GAIT = 3 ∧ s.getF F.REIN_CAP_COOL_B = 0 then s.raise F.REIN_STATUS_GAIT_REJECT
    else s.setF F.REIN_GAIT_GAIT (newF v F.REIN_GAIT_GAIT)
  | 0x20008 => put F.REIN_PL_SUST_W 60 310 (newF v F.REIN_PL_SUST_W)
  | 0x2000C => put F.REIN_PL_FAST_W 60 372 (newF v F.REIN_PL_FAST_W)
  | 0x20010 =>
    let s1 := put F.REIN_WINDOW_SECONDS 1 60 (newF v F.REIN_WINDOW_SECONDS)
    let w := 10 * s.getF F.REIN_WINDOW_SECONDS
    let w1 := 10 * s1.getF F.REIN_WINDOW_SECONDS
    if w1 = w ∨ s.rein.buckets = [] then s1
    else s1.setRein fun r =>
      { r with buckets := List.replicate w1 (r.buckets.foldl (· + ·) 0), den := r.den * w }
  | 0x20014 => put F.REIN_HOST_LIMIT_MHZ 400 1150 (newF v F.REIN_HOST_LIMIT_MHZ / 25 * 25)
  | _ => s

/-- A port's write of such a register is latched: class 4 from management, class 5 from the PF or the DRT. -/
def State.reinWrite (s : State) (port : Port) (off : Nat) (v : W32) : State :=
  match port with
  | .vf _ => s.denied port
  | .mgmt => s.latch (.mgmtWrite off v)
  | _ => s.latch (.cfgWrite off v)

def execReinGaitWrite (port : Port) (w : W32) (s : State) : Out :=
  if s.phase ≠ .up then unreached s else .next (s.reinWrite port 0x20000 w)

/-! ### The power controller (R440 to R444) -/

def sumNat (l : List Nat) : Nat := l.foldl (· + ·) 0

/-- P_fast as a fraction of mW: the sum and the number of samples. (DEDUCED, log 48) -/
def Rein.pFast (r : Rein) : Nat × Nat := (sumNat r.samples, r.samples.length)
/-- P_sust as a fraction: before the first bucket it is P_fast (R441). (DEDUCED, log 48) -/
def Rein.pSust (r : Rein) : Nat × Nat :=
  if r.buckets = [] then r.pFast else (sumNat r.buckets, r.den * r.buckets.length)

/-- A fraction of mW in units of 0.1 W; which way an inexact one goes is free. (DEDUCED, log 48) -/
def State.tenths (s : State) (q : Nat × Nat) : Nat :=
  let d := 100 * q.2
  if d = 0 then 0 else q.1 / d + (if q.1 % d = 0 then 0 else s.free % 2)

/-- Take a sample into the last 100 and the buckets. -/
def Rein.addSample (r : Rein) (w p : Nat) : Rein :=
  let samples := (p :: r.samples).take 100
  let bucket := p :: r.bucket
  if bucket.length < 100 then { r with samples := samples, bucket := bucket }
  else
    let b := sumNat bucket * (r.den / 100)
    let buckets := if r.buckets = [] then List.replicate w b else (b :: r.buckets).take w
    { r with samples := samples, bucket := [], buckets := buckets }

/-- The fast limit at a sample (R443). -/
def State.reviseFast (s : State) : State :=
  let q := s.rein.pFast
  let pl := s.plFast
  if pl * q.2 < q.1 then
    let f := match s.rein.fFast with
      | some f => min (f - 25) (s.runF - 25)
      | none => s.runF - 25
    s.setRein fun r => { r with fFast := some (max fMin f), fastLow := 0 }
  else if 100 * q.1 < 95 * pl * q.2 then
    let n := s.rein.fastLow + 1
    match s.rein.fFast with
    | none => s.setRein fun r => { r with fastLow := n }
    | some f =>
      if n % 10 ≠ 0 then s.setRein fun r => { r with fastLow := n }
      else s.setRein fun r => { r with fastLow := n, fFast := if s.schedF ≤ f + 25 then none else some (f + 25) }
  else s.setRein fun r => { r with fastLow := 0 }

/-- A power limit is exceeded while ACLK runs at F_MIN (R444). -/
def State.atFloor (s : State) : Bool :=
  let f := s.rein.pFast
  let u := s.rein.pSust
  decide (s.runF = fMin ∧ (s.plFast * f.2 < f.1 ∨ s.plSust * u.2 < u.1))

/-- A supply trouble shows (R445). -/
def State.supplyTrouble (s : State) (now : Nat) : State :=
  (s.setRein fun r => { r with fSupply := some (min 600 s.runF), supplyAt := max now r.supplyAt }).retune now

/-- The power stages run: the uncore is released. -/
def powered (s : State) (f : Out) : Out := if s.phase = .up ∨ s.phase = .recovery then f else .refused .cannotOccur

/-- A power sample of `p` mW. `telem` says that a PMBus reading has been missing for 3 ms; `warn` that the
regulator's STATUS_WORD shows a warning. (DEDUCED, log 49) -/
def execReinSample (now p : Nat) (telem warn : Bool) (s : State) : Out :=
  powered s <|
    let s1 := ((s.accrue now).setRein fun r => r.addSample (10 * s.getF F.REIN_WINDOW_SECONDS) p).setF F.REIN_STATUS_TELEM_FAIL
      (if telem then 1 else 0)
    let s2 := s1.reviseFast.retune now
    let s3 := (s2.setF F.REIN_P_FAST_DW (min 65535 (s2.tenths s2.rein.pFast))).used1
    let s4 := (s3.setF F.REIN_P_SUST_DW (min 65535 (s3.tenths s3.rein.pSust))).used1
    let s5 := s4.setF F.REIN_STATUS_FLOOR (if s4.atFloor then 1 else 0)
    .next (if warn then s5.supplyTrouble now else s5)

/-- The sustained limit after a revision (R442). -/
def State.sustNext (s : State) : Option Nat :=
  let (n, d) := s.rein.pSust
  let pl := s.plSust
  let f := capF s.gaitF s.rein.fSust
  if pl * d < n then some (max fMin (f - 25 * min 8 ((n - pl * d) * 50 / (pl * d) + 1)))
  else if 100 * n < 97 * pl * d ∧ s.rein.fSust.isSome ∧ f < s.gaitF then (if s.gaitF ≤ f + 25 then none else some (f + 25))
  else s.rein.fSust

/-- The last revision lies at least 100 ms in the past, and the first bucket is complete. -/
def State.mayRevise (s : State) (now : Nat) : Bool :=
  decide (s.rein.buckets ≠ []) && (match s.rein.lastRev with
    | some t => decide (t + 100000000 ≤ now)
    | none => true)

def State.reviseSust (s : State) (now : Nat) : State :=
  if s.mayRevise now then ((s.setRein fun r => { r with fSust := s.sustNext, lastRev := some now }).retune now) else s

/-- While ticking is stopped the revision runs by itself; while it runs, a tick edge makes it (R442).
(DEDUCED, log 49) -/
def execFSustRevision (now : Nat) (s : State) : Out :=
  powered s <|
    if s.pace.ticking ∨ s.mayRevise now = false then .refused .cannotOccur else .next (s.reviseSust now)

/-- The regulator reports the raised voltage. -/
def execVoltageRampDone (now : Nat) (s : State) : Out :=
  powered s <|
    if s.rein.ramp = false then .refused .cannotOccur
    else .next (((s.accrue now).setRein fun r => { r with sched := s.schedF, ramp := false }).retune now)

/-! ### Supply monitoring (R445) -/

def execVrAlert (now : Nat) (s : State) : Out := powered s <| .next (s.supplyTrouble now)
def execAvsTimeout (now : Nat) (s : State) : Out := powered s <| .next (s.supplyTrouble now)
def execRailWarning (now : Nat) (s : State) : Out := powered s <| .next (s.supplyTrouble now)

/-- Every source has been clear for 10 ms. -/
def execFSupplyRemoved (now : Nat) (s : State) : Out :=
  powered s <|
    if s.rein.fSupply = none ∨ now < s.rein.supplyAt + 10000000 then .refused .cannotOccur
    else .next (((s.accrue now).setRein fun r => { r with fSupply := none }).retune now)

/-! ### Adaptive voltage and Curb (R446 to R450) -/

/-- The detector's domain: its Team, or 8 for the uncore. -/
def detDomain (d : Nat) : Nat := if d < 80 then d / 10 else 8

/-- The Team is on, so that its detectors are. -/
def State.detOn (s : State) (d : Nat) : Bool :=
  if d < 80 then s.teamPresent (d / 10) && decide (s.getF (F.TEAM_PWR_STATUS_STATE (d / 10)) ≠ 1) else decide (d < 96)

def State.detThere (s : State) (d : Nat) : Bool := if d < 80 then s.teamPresent (d / 10) else decide (d < 96)

/-- The largest threshold among the detectors of powered domains. -/
def State.thMax (s : State) : Nat :=
  (((List.range 96).filter s.detOn).map fun d => s.getF (F.CURB_DET_THR d)).foldl max 0

/-- The critical-path monitors read `vcrit` mV and the regulator reads back `meas` mV (R447). -/
def execAvsUpdate (now vcrit meas : Nat) (s : State) : Out :=
  powered s <|
    let v := (vcrit + s.thMax + gaitMargin s.gait + 4) / 5 * 5
    let v1 := if v < 650 then 650 else v
    let s1 := (s.setF F.REIN_VCORE_TARGET_MV (min 65535 v1)).setF F.REIN_VCORE_MEAS_MV (min 65535 meas)
    .next (if 900 < v1 then s1.supplyTrouble now else s1)

/-- A detector fires. -/
def execDroopDetect (d now : Nat) (s : State) : Out :=
  powered s <|
    if s.detThere d = false then .refused .noSuchUnit
    else if s.detOn d = false then .refused .cannotOccur
    else
      let s1 := (s.accrue now).addF (F.CURB_DET_FIRES d) 1
      let on (l : List Nat) : List Nat := if d ∈ l then l else d :: l
      .next ((s1.setRein fun r => { r with fires := tmod nat0 r.fires d (· + 1), stretch := on r.stretch }).retune now)

/-- The stretch of a detector ends; its domain has lost `lost` cycles to it: for the uncore's, every Team has
too. (DESIGN CHOICE, log 50) -/
def execStretchEnd (d lost now : Nat) (s : State) : Out :=
  powered s <|
    if d ∉ s.rein.stretch then .refused .cannotOccur
    else
      let dom := detDomain d
      let hit := if dom = 8 then (List.range 9).filter fun t => t = 8 ∨ s.teamPresent t else [dom]
      let add (t : Tbl Nat) : Tbl Nat := hit.foldl (fun t i => tmod nat0 t i fun n => min (n + lost) (2 ^ 32 - 1)) t
      let s1 := (s.accrue now).setRein fun r => { r with stretch := r.stretch.filter (· ≠ d), lost := add r.lost }
      .next (s1.retune now)

/-- The threshold of one detector after an interval of 1 ms (R450). (DESIGN CHOICE, log 50) -/
def State.adaptOne (s : State) (d : Nat) : State :=
  let n := tget nat0 s.rein.fires d
  let q := if n = 0 then tget nat0 s.rein.quiet d + 1 else 0
  let th := s.getF (F.CURB_DET_THR d)
  let th1 := if s.getF F.CURB_CTRL_RATE_HI < n then min 60 (th + 2) else if q = 16 then max 20 (th - 2) else th
  (s.setF (F.CURB_DET_THR d) th1).setRein fun r => { r with quiet := tset nat0 r.quiet d (if q = 16 then 0 else q) }

/-- With ADAPT at 0 every threshold stays at THR_INIT. -/
def State.curbInit (s : State) : State :=
  if s.getF F.CURB_CTRL_ADAPT = 1 then s
  else (((List.range 96).filter s.detThere).foldl (fun t d => t.setF (F.CURB_DET_THR d) (t.getF F.CURB_CTRL_THR_INIT)) s).setRein
    fun r => { r with quiet := [] }

/-- The thresholds after 1 ms; the detectors of a gated Team are off, and theirs stay. (DEDUCED, log 49) -/
def execCurbAdapt (s : State) : Out :=
  powered s <|
    let s1 := if s.getF F.CURB_CTRL_ADAPT = 1 then ((List.range 96).filter s.detOn).foldl State.adaptOne s else s.curbInit
    .next (s1.setRein fun r => { r with fires := [] })

/-! ### Heat (R451 to R453) -/

/-- The Team of a sensor is absent. -/
def State.sensorAbsent (s : State) (i : Nat) : Bool := decide (i < 24) && !s.teamPresent (i / 3)

/-- A reading in quarter degrees is valid. -/
def goodTemp (t : Int) : Bool := decide (-160 ≤ t ∧ t ≤ 600)

def State.readSensor (s : State) (i : Nat) (t : Int) : State :=
  let s1 := s.setF (F.THERM_SENSOR_TEMP i) (intCode 12 t)
  if s.sensorAbsent i then s1.setF (F.THERM_SENSOR_VALID i) 0
  else if goodTemp t then s1.setF (F.THERM_SENSOR_VALID i) 1
  else (s1.setF (F.THERM_SENSOR_VALID i) 0).raise F.THERM_STATUS_SENSOR_FAIL

/-- The highest valid reading and its sensor, the lowest such number. -/
def hottest : List (Nat × Int) → Option (Nat × Int)
  | [] => none
  | e :: l => match hottest l with
    | some m => if e.2 < m.2 then some m else some e
    | none => some e

/-- The thermal limit at a sample (R452). -/
def State.reviseTherm (s : State) (tj : Int) : State :=
  let thr : Int := 4 * s.getF F.THERM_THR_T_THR
  if thr ≤ tj then
    match s.rein.fTherm with
    | none => s.setRein fun r => { r with fTherm := some (max fMin (s.runF - 100)), hot := 0, cool := 0 }
    | some f =>
      if s.rein.hot + 1 < 10 then s.setRein fun r => { r with hot := r.hot + 1, cool := 0 }
      else s.setRein fun r => { r with fTherm := some (max fMin (f - 25)), hot := 0, cool := 0 }
  else if tj < thr - 8 then
    match s.rein.fTherm with
    | none => s
    | some f =>
      if s.rein.cool + 1 < 100 then s.setRein fun r => { r with cool := r.cool + 1, hot := 0 }
      else s.setRein fun r => { r with fTherm := if s.schedF ≤ f + 25 then none else some (f + 25), hot := 0, cool := 0 }
  else s.setRein fun r => { r with hot := 0, cool := 0 }

/-- The device trips: the record is in AON and every clock outside it stops (R453). -/
def State.trip (s : State) (i : Nat) (t : Int) : State :=
  let s1 := ((s.setF F.THERM_TRIP_REC_VALID 1).setF F.THERM_TRIP_REC_SENSOR i).setF F.THERM_TRIP_REC_TEMP (intCode 12 t)
  { (s1.setF F.THERM_TRIP_TICK_LO_TICK (s.tick % 2 ^ 32)).setF F.THERM_TRIP_TICK_HI_TICK (s.tick / 2 ^ 32) with phase := .tripped }

/-- The 32 sensors are read, in quarter degrees. While the device enters deep sleep a trip still wins (Table PW-4);
nothing else of a sample is kept then. (DEDUCED, log 49) -/
def execThermalSample (now : Nat) (temps : List Int) (s : State) : Out :=
  if s.phase = .coldReset ∨ s.phase = .tripped then .refused .cannotOccur
  else if temps.length ≠ 32 then .refused .noSuchUnit
  else
    let rs := numbered 0 temps
    let s1 := rs.foldl (fun t e => t.readSensor e.1 e.2) (s.accrue now)
    let valid := rs.filter fun e => goodTemp e.2 && !s.sensorAbsent e.1
    let bad := (rs.filter fun e => !goodTemp e.2 && !s.sensorAbsent e.1).length
    let s2 := s1.setF F.THERM_STATUS_MULTI_FAIL (if 2 ≤ bad then 1 else 0)
    let hot := (valid.filter fun e => decide (460 ≤ e.2)).map (·.1)
    match valid.find? (fun e => decide (460 ≤ e.2) && decide (e.1 ∈ s.rein.tripped)) with
    | some (i, t) => .next (s2.trip i t)
    | none =>
      let s3 := s2.setRein fun r => { r with tripped := hot }
      if s.phase = .deepSleep then .next (s.setRein fun r => { r with tripped := hot }) else
      match hottest valid with
      | none => .next (s3.retune now)
      | some (i, t) =>
        .next ((((s3.setF F.THERM_TJ_SENSOR i).setF F.THERM_TJ_TEMP (intCode 12 t)).reviseTherm t).retune now)

end Sys2Proof.Machine
end

