-- ==== Sys2Proof/Machine/StreamCtx.lean ====
section
/-!
DEFINITION. Stream contexts (R284 to R288), frame buffers (R310) and frame records (R319), which raw
ports, decoders, encoders and Swage engines share.
-/
namespace Sys2Proof.Machine

/-! ### Fields of a descriptor (Table VF-1) -/

def ctxOff (n : Nat) : Nat := 0x780000 + 128 * n
/-- Word `w` of a context. -/
def State.ctxWord (s : State) (n w : Nat) : W64 :=
  BitVec.ofNat 64 ((s.rd (ctxOff n + 8 * w + 4)).toNat * 2 ^ 32 + (s.rd (ctxOff n + 8 * w)).toNat)
def State.cx (s : State) (n w hi lo : Nat) : Nat := bits (s.ctxWord n w) hi lo
def cxFld (n w hi lo : Nat) : Fld := ⟨ctxOff n + 8 * w + 4 * (lo / 32), lo % 32, hi - lo + 1⟩
def State.setCx (s : State) (n w hi lo v : Nat) : State := s.setF (cxFld n w hi lo) v

def State.cSTATE (s : State) (n : Nat) : Nat := s.cx n 0 63 62
def State.cNET (s : State) (n : Nat) : Bool := decide (s.cx n 0 61 61 = 1)
def State.cPART (s : State) (n : Nat) : Nat := s.cx n 0 60 58
def State.cDEC (s : State) (n : Nat) : Nat := s.cx n 0 52 49
def State.cP010 (s : State) (n : Nat) : Bool := decide (s.cx n 0 48 48 = 1)
def State.cNFB (s : State) (n : Nat) : Nat := s.cx n 0 47 40
def State.cCLASS (s : State) (n : Nat) : Nat := s.cx n 1 63 62
def State.cBUDGET (s : State) (n : Nat) : Nat := s.cx n 1 31 0
/-- Address bits [34:12] or [34:16] of a field at the top of a word. -/
def State.cJB (s : State) (n : Nat) : Nat := s.cx n 5 63 45 * 2 ^ 16
def State.cJBSIZE (s : State) (n : Nat) : Nat := s.cx n 5 31 16 * 65536
def State.cFB (s : State) (n : Nat) : Nat := s.cx n 7 63 41 * 4096
def State.cFBSIZE (s : State) (n : Nat) : Nat := s.cx n 7 31 8 * 4096
def State.cFR (s : State) (n : Nat) : Nat := s.cx n 8 63 41 * 4096
def State.cFRN (s : State) (n : Nat) : Nat := 2 ^ s.cx n 8 31 28
def State.cAUX (s : State) (n : Nat) : Nat := s.cx n 9 63 41 * 4096
def State.cEO (s : State) (n : Nat) : Nat := s.cx n 14 63 41 * 4096
def State.cEOSIZE (s : State) (n : Nat) : Nat := s.cx n 14 31 16 * 65536
def State.cENCEN (s : State) (n : Nat) : Bool := decide (s.cx n 15 47 47 = 1)
/-- Swage output `j` of the context: enabled, its profile, its slots and its object. -/
def State.cSEN (s : State) (n j : Nat) : Bool := decide (s.cx n (10 + j) 63 63 = 1)
def State.cSPROF (s : State) (n j : Nat) : Nat := s.cx n (10 + j) 62 55
def State.cSNSLOT (s : State) (n j : Nat) : Nat := s.cx n (10 + j) 54 48
def State.cSOBJ (s : State) (n j : Nat) : Nat := s.cx n (10 + j) 31 16

/-- Add to a saturating counter of a context. -/
def State.cxCount (s : State) (n w hi lo k : Nat) : State := s.addF (cxFld n w hi lo) k

/-- The contexts whose word 0 is listed: every ACTIVE or DRAINING one is among them. -/
def State.listedCtxs (s : State) : List Nat :=
  s.regs.filterMap fun e => if 0x780000 ≤ e.1 ∧ e.1 < 0x800000 ∧ e.1 % 128 = 4 then some ((e.1 - 0x780000) / 128) else none
def State.activeCtxs (s : State) : List Nat := s.listedCtxs.filter fun n => s.cSTATE n == 1

/-- The partition whose stream-context share holds a context. -/
def State.shareOwner (s : State) (n : Nat) : Option Nat :=
  (List.range 8).find? fun p => (s.part p).live && decide ((s.part p).sctxFirst ≤ n ∧ n < (s.part p).sctxFirst + (s.part p).sctxCount)

/-! ### The capacity condition (R344) -/

/-- The left side of the condition for a partition: an accepted context whose decoder group still wakes counts. -/
def State.guarSum (s : State) (p : Nat) : Nat :=
  sumNat ((s.listedCtxs.filter fun n => (s.cSTATE n == 1 || (s.sctx n).waking) && s.cPART n == p && s.cCLASS n == 0).map s.cBUDGET) + s.getF (F.DISP_P_HSHARE_G_CYCLES p)
def State.guarCap (s : State) (p : Nat) : Nat := (s.coresOf p).length * s.bSched * s.getF F.DISP_CTRL_GPCT / 100
def State.guarOk (s : State) (p : Nat) : Bool := decide (s.guarSum p ≤ s.guarCap p)
def State.guarReject (s : State) : State := s.raise F.DISP_STATUS_G_REJECT

/-! ### Decoder groups (R311) -/

def grp0 : Nat → Nat := fun _ => 0
def State.grp (s : State) (g : Nat) : Nat := tget grp0 s.vis.groups g
def State.setGrp (s : State) (g v : Nat) : State := { s with vis := { s.vis with groups := tset grp0 s.vis.groups g v } }
def dec0 : Nat → Option Decode := fun _ => none
def State.decAt (s : State) (d : Nat) : Option Decode := tget dec0 s.vis.decs d

/-- A context that is ACTIVE, or waking, names a decoder of the group, or a decoder of it is busy.
(DESIGN CHOICE, log 104) -/
def State.grpNeeded (s : State) (g : Nat) : Bool :=
  (s.listedCtxs.any fun n => (s.cSTATE n == 1 || (s.sctx n).waking) && s.cNET n && s.cDEC n / 4 == g) ||
  (List.range 4).any fun i => (s.decAt (4 * g + i)).isSome

/-- Gate the groups that nothing names, and power the gated ones that something names. -/
def State.regroup (s : State) : State :=
  (List.range 4).foldl (fun t g => if s.grpNeeded g then (if t.grp g = 0 then t.setGrp g 1 else t) else t.setGrp g 0) s

def State.decPresent (s : State) (d : Nat) : Bool := decide (s.getF F.GLB_CAP_VIDEO_DEC_PRESENT / 2 ^ d % 2 = 1)

/-! ### Writes of a descriptor (R284 to R286) -/

def State.visReject (s : State) : State := s.raise F.VIS_STATUS_WRITE_REJECT

/-- The bits of dword `d` that only the device writes. -/
def ctxRo (d : Nat) : W32 := if d = 1 then 0xC0000000#32 else if 24 ≤ d ∧ d ≤ 27 then 0xFFFFFFFF#32 else 0#32
/-- PART, which only the PF writes. -/
def ctxPart (d : Nat) : W32 := if d = 1 then 0x1C000000#32 else 0#32
/-- The bits of dword `d` of the live fields. -/
def ctxLive (d : Nat) : W32 :=
  if d = 1 then 0x001E0000#32 else if d = 2 ∨ d = 13 then 0xFFFFFFFF#32 else if d = 3 then 0xFFFF8000#32 else 0#32

/-- A live write of the dword waits for the snapshot, so that a later one counts even where it restores the value (R286). -/
def State.liveWaits (s : State) (n d : Nat) : Bool :=
  s.events.any fun e => match e with
    | .ctxLive m b _ => m == n && b == d
    | _ => false

/-- A write to a context by its state. -/
def State.ctxPut (s : State) (port : Port) (n d : Nat) (w : W32) : State :=
  let old := s.rd (ctxOff n + 4 * d)
  let keep := ctxRo d ||| (if port = .pf then 0#32 else ctxPart d)
  let new := (old &&& keep) ||| (w &&& ~~~keep)
  let changed := new ^^^ old
  if s.cSTATE n = 0 ∧ (s.sctx n).waking = false then s.wr (ctxOff n + 4 * d) new
  else if changed = 0#32 ∧ s.liveWaits n d = false then s
  else if s.cSTATE n = 1 ∧ changed &&& ~~~(ctxLive d) = 0#32 then s.latch (.ctxLive n d new)
  else s.visReject

/-- A write of dword `d` of context `n`; one of a VF outside its share also counts as denied (R285, R327). -/
def execStreamCtxWrite (port : Port) (n d : Nat) (w : W32) (s : State) : Out :=
  if s.phase ≠ .up then unreached s
  else if 4096 ≤ n ∨ 32 ≤ d then .refused .noSuchUnit
  else match port with
  | .mgmt => .next (s.denied port)
  | .vf v => match s.vfPart v with
    | none => .next (s.addF F.RAS_UNPOP_WR_COUNT 1)
    | some p =>
      if s.shareOwner n ≠ some p then .next (s.visReject.denied port)
      else if s.cPART n = p then .next (s.ctxPut port n d w) else .next s.visReject
  | _ => match s.shareOwner n with
    | some p => if s.partPort port p = false then .next (s.denied port) else .next (s.ctxPut port n d w)
    | none => .next (s.ctxPut port n d w)

/-- Judge and apply the live writes of one context in one snapshot, together: `w1` is word 1 as written, `dec`
and `waits` the DEC field and word 6 [63:32]. -/
def State.ctxJudge (s : State) (n : Nat) (w1 : W64) (dec waits : Nat) : State :=
  let p := s.cPART n
  let s1 := s.setCx n 6 63 32 waits
  let esc := bits w1 61 60
  let s2 := if esc = s1.cx n 1 61 60 then s1 else if esc = 3 then s1.visReject else s1.setCx n 1 61 60 esc
  let s3 := if dec = s2.cDEC n then s2
    else if s2.cNET n ∧ (s2.decPresent dec = false ∨ (s2.fence 3 (dec / 4)).failed) then s2.visReject
    else
      let t := s2.setCx n 0 52 49 dec
      if t.cNET n then (t.modSctx n fun x => { x with decLost := true }).regroup else t
  let kv := bits w1 59 47
  let s4 := if kv = s3.cx n 1 59 47 then s3
    else if kv / 4096 = 1 ∧ s3.kvInShare p (kv % 4096) = false then s3.visReject
    else s3.setCx n 1 59 47 kv
  let cls := if bits w1 63 62 = 3 then s4.cCLASS n else bits w1 63 62
  let s5 := if bits w1 63 62 = 3 then s4.visReject else s4
  let bud := bits w1 31 0
  if cls = s5.cCLASS n ∧ bud = s5.cBUDGET n then s5
  else
    let t := (s5.setCx n 1 63 62 cls).setCx n 1 31 0 bud
    if (cls = 0 ∨ s5.cCLASS n = 0) ∧ t.guarOk p = false then s5.visReject.guarReject else t

/-- Apply the latched live writes of a context, in their order. (DEDUCED, log 56) -/
def State.ctxLiveApply (s : State) (n : Nat) (l : List (Nat × W32)) : State :=
  if s.cSTATE n ≠ 1 then s.visReject
  else
    let get (d : Nat) : Nat := (l.foldl (fun m e => if e.1 = d then e.2 else m) (s.rd (ctxOff n + 4 * d))).toNat
    s.ctxJudge n (BitVec.ofNat 64 (get 3 * 2 ^ 32 + get 2)) (get 1 / 2 ^ 17 % 16) (get 13)

/-! ### Swage profiles (Table VF-8) -/

/-- The 16 dwords of a profile. -/
def State.profile (s : State) (i : Nat) : List W32 := (List.range 16).map fun k => s.rd (0x740000 + 64 * i + 4 * k)

def pWord (ws : List W32) (w : Nat) : W64 :=
  BitVec.ofNat 64 ((ws.getD (2 * w + 1) 0#32).toNat * 2 ^ 32 + (ws.getD (2 * w) 0#32).toNat)
def pF (ws : List W32) (w hi lo : Nat) : Nat := bits (pWord ws w) hi lo

/-- What a profile asks for. -/
def pOW (ws : List W32) : Nat := pF ws 1 63 48
def pOH (ws : List W32) : Nat := pF ws 1 47 32
def pCHANNELS (ws : List W32) : Nat := if pF ws 1 26 25 = 2 then 1 else 3
/-- Bytes of a slot (R317). -/
def pSLOT (ws : List W32) : Nat := align64 (pOW ws * pOH ws * pCHANNELS ws)

/-- The rules of the table that need no frame. -/
def profileShape (ws : List W32) : Bool :=
  let cw := pF ws 0 31 16
  let ch := pF ws 0 15 0
  (decide (cw = 0) || decide (2 ≤ cw ∧ 2 ≤ ch)) &&
  decide (16 ≤ pOW ws ∧ pOW ws ≤ 4096 ∧ 16 ≤ pOH ws ∧ pOH ws ≤ 4096 ∧ pF ws 1 30 29 ≤ 1 ∧ pF ws 1 28 27 ≤ 1 ∧ pF ws 1 26 25 ≤ 2 ∧
    pF ws 1 22 0 = 0 ∧ pF ws 5 39 0 = 0 ∧ pWord ws 6 = 0#64 ∧ pWord ws 7 = 0#64)

/-- A crop within a frame: its corner and its size. -/
structure Crop where
  x : Nat
  y : Nat
  w : Nat
  h : Nat
deriving DecidableEq, Repr

/-- The crop of a profile, intersected with a frame (R316). -/
def cropOf (ws : List W32) (fw fh : Nat) : Crop :=
  if pF ws 0 31 16 = 0 then ⟨0, 0, fw, fh⟩
  else
    let x := pF ws 0 63 48
    let y := pF ws 0 47 32
    ⟨x, y, min (pF ws 0 31 16) (fw - x), min (pF ws 0 15 0) (fh - y)⟩

def f32Quot (a b : Nat) : Nat := fenc fmtF32 (FV.div 60 (fdec fmtF32 a) (fdec fmtF32 b))
def f32Nat (n : Nat) : Nat := f32OfInt n

/-- An FP32 code rounded to an integer, ties away from zero. -/
def f32Round (a : Nat) : Int :=
  match fdec fmtF32 a with
  | .fin neg m e => roundInt neg m e
  | _ => 0

/-- The scaled region: its size and its corner in the output (R316). -/
structure Region where
  w : Nat
  h : Nat
  x : Nat
  y : Nat
deriving DecidableEq, Repr

def regionOf (ws : List W32) (c : Crop) : Region :=
  if pF ws 1 31 31 = 0 then ⟨pOW ws, pOH ws, 0, 0⟩
  else
    let a := f32Quot (f32Nat (pOW ws)) (f32Nat c.w)
    let b := f32Quot (f32Nat (pOH ws)) (f32Nat c.h)
    let k := if f32Gt a b then b else a
    let w := (f32Round (f32Mul (f32Nat c.w) k)).toNat
    let h := (f32Round (f32Mul (f32Nat c.h) k)).toNat
    ⟨w, h, (pOW ws - w) / 2, (pOH ws - h) / 2⟩

/-- Both ratios lie between 1/16 and 16. -/
def ratioOk (c : Crop) (r : Region) : Bool :=
  decide (0 < c.w ∧ 0 < c.h ∧ 0 < r.w ∧ 0 < r.h ∧ c.w ≤ 16 * r.w ∧ r.w ≤ 16 * c.w ∧ c.h ≤ 16 * r.h ∧ r.h ≤ 16 * c.h)

/-- A profile keeps the table's rules for a frame. -/
def profileOk (ws : List W32) (fw fh : Nat) : Bool :=
  profileShape ws && ratioOk (cropOf ws fw fh) (regionOf ws (cropOf ws fw fh))

/-! ### ACTIVATE and DEACTIVATE (R287, R288) -/

def State.rawSize (s : State) (p : Nat) : Nat × Nat := (s.getF (F.RAW_SIZE_WIDTH p), s.getF (F.RAW_SIZE_HEIGHT p))

/-- The ratios of a profile whose crop is given, where the frame is not known: those of the whole crop. -/
def cropRatioOk (ws : List W32) : Bool :=
  let c : Crop := ⟨pF ws 0 63 48, pF ws 0 47 32, pF ws 0 31 16, pF ws 0 15 0⟩
  decide (c.w = 0) || ratioOk c (regionOf ws c)

/-- An enabled output's profile breaks a rule. A network context's frame size is not known yet: its ratios are judged where
the profile names a crop. (DEDUCED, log 56) -/
def State.outputBad (s : State) (n j : Nat) : Bool :=
  s.cSEN n j &&
  (let ws := s.profile (s.cSPROF n j)
   decide (s.cSNSLOT n j = 0) ||
   (if s.cNET n then !(profileShape ws && cropRatioOk ws)
    else !profileOk ws (s.rawSize (s.cx n 0 57 55)).1 (s.rawSize (s.cx n 0 57 55)).2))

/-- A field is refused or out of its range, or a reserved bit is set (check 3). -/
def State.ctxShapeBad (s : State) (n : Nat) : Bool :=
  let clear (w : Nat) (m : Nat) : Bool := clearOf (s.ctxWord n w) m
  !(clear 0 (maskOf 39 39 + maskOf 31 0) && clear 1 (maskOf 46 32) && clear 2 (maskOf 13 0) &&
    clear 5 (maskOf 44 32 + maskOf 15 0) && clear 6 (maskOf 31 0) && clear 7 (maskOf 40 32 + maskOf 7 0) &&
    clear 8 (maskOf 40 32 + maskOf 27 0) && clear 9 (maskOf 40 32 + maskOf 15 0) && clear 10 (maskOf 47 32 + maskOf 15 0) &&
    clear 11 (maskOf 47 32 + maskOf 15 0) && clear 14 (maskOf 40 32 + maskOf 15 0) && clear 15 (maskOf 9 0)) ||
  decide (s.cx n 0 54 53 = 3 ∨ s.cNFB n < 2 ∨ 64 < s.cNFB n ∨ s.cCLASS n = 3 ∨ s.cx n 1 61 60 = 3 ∨
    s.cx n 8 31 28 < 4 ∨ 12 < s.cx n 8 31 28 ∨ s.cx n 15 45 44 = 3 ∨
    (s.cENCEN n ∧ (51 < s.cx n 15 43 38 ∨ s.cx n 15 37 26 = 0)) ∨
    (s.cNET n = false ∧ (s.cx n 5 31 16 ≠ 0 ∨ s.cx n 9 31 16 ≠ 0))) ||
  s.outputBad n 0 || s.outputBad n 1

/-- An area lies outside the partition's range, a raw frame does not fit, or a loaded Swage object is too small (check 4); one
that is not loaded falls to check 5. -/
def State.ctxBoundsBad (s : State) (n : Nat) : Bool :=
  let p := s.cPART n
  let ok (a len : Nat) : Bool := len == 0 || s.inRange p a len
  let (w, h) := s.rawSize (s.cx n 0 57 55)
  let small (j : Nat) : Bool :=
    s.cSEN n j && decide ((s.obj p (s.cSOBJ n j)).stage = 2 ∧ (s.obj p (s.cSOBJ n j)).size < pSLOT (s.profile (s.cSPROF n j)) * s.cSNSLOT n j)
  !(ok (s.cJB n) (s.cJBSIZE n) && ok (s.cFB n) (s.cNFB n * s.cFBSIZE n) && ok (s.cFR n) (64 * s.cFRN n) &&
    ok (s.cAUX n) (if s.cNET n then s.cx n 9 31 16 else 8192 * s.cNFB n) && (!s.cENCEN n || ok (s.cEO n) (s.cEOSIZE n))) ||
  (!s.cNET n && decide (s.cFBSIZE n < frameBytes w h (s.cP010 n))) || small 0 || small 1

/-- The flow key: the port, the enables, and the enabled values. -/
def State.flowKey (s : State) (n : Nat) : List Nat :=
  let se := s.cx n 2 15 15
  let ie := s.cx n 2 14 14
  [s.cx n 2 31 16, se, ie, if se = 1 then s.cx n 2 63 32 else 0, if ie = 1 then (s.ctxWord n 3).toNat else 0,
   if ie = 1 then (s.ctxWord n 4).toNat else 0]

/-- A Swage object is unusable, the raw port or the flow is taken, or the KV context lies outside (check 5). -/
def State.ctxPermBad (s : State) (n : Nat) : Bool :=
  let p := s.cPART n
  let objBad (j : Nat) : Bool := s.cSEN n j && (decide ((s.obj p (s.cSOBJ n j)).stage ≠ 2) || !(s.obj p (s.cSOBJ n j)).pin)
  let taken := (s.listedCtxs.filter fun m => m != n && (s.cSTATE m == 1 || (s.sctx m).waking)).any fun m =>
    (!s.cNET n && !s.cNET m && s.cx m 0 57 55 == s.cx n 0 57 55) || (s.cNET n && s.cNET m && s.flowKey m == s.flowKey n)
  objBad 0 || objBad 1 || taken || (decide (s.cx n 1 59 59 = 1) && !s.kvInShare p (s.cx n 1 58 47))

/-- A unit that the context names is absent (check 2). -/
def State.ctxAbsent (s : State) (n : Nat) : Bool :=
  (if s.cNET n then !s.decPresent (s.cDEC n) else decide (s.getF F.GLB_CAP_VIDEO_RAWPORT_PRESENT / 2 ^ s.cx n 0 57 55 % 2 = 0)) ||
  (s.cENCEN n && decide (s.getF F.GLB_CAP_VIDEO_ENC_PRESENT / 2 ^ s.cx n 15 46 46 % 2 = 0))

/-- The context as it would stand ACTIVE keeps the capacity condition. -/
def State.ctxCapBad (s : State) (n : Nat) : Bool :=
  decide (s.cCLASS n = 0) && !(s.setCx n 0 63 62 1).guarOk (s.cPART n)

/-- The reason that refuses an ACTIVATE, in the order of the checks. -/
def State.activateRefusal (s : State) (n : Nat) : Option Nat :=
  if s.cSTATE n ≠ 0 ∨ (s.sctx n).waking then some rPermission
  else if s.ctxAbsent n then some rUnitAbsent
  else if s.ctxShapeBad n then some rIllegalShape
  else if s.ctxBoundsBad n then some rLengthBounds
  else if s.ctxPermBad n then some rPermission
  else if s.ctxCapBad n then some 0x11
  else none

/-- The context becomes ACTIVE: FRAME and the counters 0, every frame buffer and every slot free. A job of an
earlier activation holds no slot of this one. -/
def State.setActive (s : State) (n : Nat) : State :=
  let s1 := ((s.setCx n 0 63 62 1).wr (ctxOff n + 96) 0#32).wr (ctxOff n + 100) 0#32
  let s2 := ((s1.wr (ctxOff n + 104) 0#32).wr (ctxOff n + 108) 0#32).setSctx n {}
  { s2 with jobs := s2.jobs.map fun e => (e.1, if e.2.sctx = n ∧ e.2.holds then { e.2 with holds := false } else e.2) }

def State.ctxResult (s : State) (n st reason : Nat) : State :=
  ((s.setF F.VIS_CTX_RESULT_STATE st).setF F.VIS_CTX_RESULT_CTX n).setF F.VIS_CTX_RESULT_REASON reason

/-- Apply ACTIVATE. A network context whose decoder group is gated waits for its power. (DEDUCED, log 56) -/
def State.activateApply (s : State) (n : Nat) : State :=
  match s.activateRefusal n with
  | some r => s.ctxResult n 2 r
  | none =>
    let s1 := s.ctxResult n 1 0
    if s1.cNET n ∧ s1.grp (s1.cDEC n / 4) ≠ 2 then (s1.modSctx n fun x => { x with waking := true }).regroup
    else s1.setActive n

/-- Apply DEACTIVATE: the jitter buffer is discarded without records. -/
def State.deactivateApply (s : State) (n : Nat) : State :=
  let s1 := s.ctxResult n 1 0
  if s1.cSTATE n ≠ 1 then s1
  else
    let s2 := (s1.setCx n 0 63 62 2).modSctx n fun x => { x with units := [], used := 0, missing := [] }
    { s2 with vis := { s2.vis with released := s2.vis.released.filter fun e => e.1 ≠ n } }

def State.visQueued (s : State) : Nat :=
  (s.events.filter fun e => match e with
    | .visCmd _ _ => true
    | _ => false).length

def visCmd (port : Port) (op n : Nat) (s : State) : Out :=
  hostWrite port s fun s => if s.visQueued < 64 then s.latch (.visCmd op (n % 4096)) else s.raise F.VIS_STATUS_CMD_REJECT

def execActivate (port : Port) (n : Nat) (s : State) : Out := visCmd port 1 n s
def execDeactivate (port : Port) (n : Nat) (s : State) : Out := visCmd port 2 n s

/-- The group has power: the contexts that waited for it become ACTIVE. -/
def execDecoderGroupPowered (g : Nat) (s : State) : Out :=
  if s.phase ≠ .up then .refused .cannotOccur
  else if 4 ≤ g then .refused .noSuchUnit
  else if s.grp g ≠ 1 then .refused .cannotOccur
  else .next ((s.listedCtxs.filter fun n => (s.sctx n).waking && s.cNET n && s.cDEC n / 4 == g).foldl State.setActive (s.setGrp g 2))

/-! ### Frame buffers (R310) -/

/-- A frame's work still uses the buffer: it is being filled, scaled, encoded or compressed. -/
def State.fbUsed (s : State) (n i : Nat) : Bool :=
  let frame (f : VFrame) : Bool := f.ctx == n && f.fb == i
  let enc (q : EncJob) : Bool := q.ctx == n && q.fb == i
  let jpeg (j : JpegJob) : Bool := bits (j.words.getD 0 0#64) 63 52 == n && bits (j.words.getD 0 0#64) 51 44 == i
  (s.vis.frames.any frame) || decide (i ∈ (s.sctx n).refs) ||
  (s.vis.encQ.any fun e => e.2.any enc) ||
  (s.vis.encs.any fun e => match e.2 with
    | some q => enc q
    | none => false) ||
  s.vis.jpegQ.any jpeg || (match s.vis.jpeg with
    | some j => jpeg j
    | none => false)

def State.fbFree (s : State) (n i : Nat) : Bool := decide (i ∉ (s.sctx n).held) && !s.fbUsed n i

/-- The next free buffer, upwards from the one after the last allocated. -/
def State.fbNext (s : State) (n : Nat) : Option Nat :=
  let k := s.cNFB n
  let first := if (s.sctx n).lastFb = 0xFF then 0 else (s.sctx n).lastFb + 1
  ((List.range k).map fun i => (first + i) % k).find? (s.fbFree n)

def State.fbTake (s : State) (n i : Nat) : State :=
  s.modSctx n fun x => { x with held := i :: x.held.filter (· ≠ i), lastFb := i }

def execFbRelease (port : Port) (n i : Nat) (s : State) : Out :=
  hostWrite port s fun s => s.modSctx (n % 4096) fun x => { x with held := x.held.filter (· ≠ i % 64) }

def State.fbAddr (s : State) (n i : Nat) : Nat := s.cFB n + s.cFBSIZE n * i

/-! ### Frame records (R319) -/

def flNoFb : Nat := 8
def flConcealed : Nat := 5
def flOverflow : Nat := 6
def flLost : Nat := 7
def flUnsupported : Nat := 9
def flDecLost : Nat := 10
def flDropped : Nat := 13
def flReady : Nat := 14
def flSwageBad : Nat := 15

/-- Set a flag of a record. -/
def setFlag (flags i : Nat) : Nat := if flags / 2 ^ i % 2 = 1 then flags else flags + 2 ^ i

/-- Take the context's next frame number. -/
def State.takeNum (s : State) (n : Nat) : Nat × State :=
  let k := s.cx n 12 63 32
  (k, s.setCx n 12 63 32 (k + 1))

/-- The bytes of a record (Table VF-11). -/
def VFrame.bytes (f : VFrame) : List Nat :=
  [f.ctx * 2 ^ 52 + f.flags % 65536 * 2 ^ 32 + f.num % 2 ^ 32, f.time, f.rtpTs * 2 ^ 32 + f.fb % 256 * 2 ^ 24 +
    f.slot0 % 256 * 2 ^ 16 + f.slot1 % 256 * 2 ^ 8, f.short * 2 ^ 50 + f.long * 2 ^ 36 + f.pad * 2 ^ 22 + f.extra * 2 ^ 8,
   f.width * 2 ^ 48 + f.height * 2 ^ 32, f.xoff * 2 ^ 32 + f.yoff, f.xmul * 2 ^ 32 + f.ymul, 0].flatMap (leBytes 8)

/-- A record keeps 14 bits of each count of lines; what it shows of a larger one is free. (DESIGN CHOICE, log 106) -/
def State.putFrameRecord (s : State) (f : VFrame) : State :=
  let fit (n i : Nat) : Nat := if n < 2 ^ 14 then n else Config.freeNat (s.fresh + i) % 2 ^ 14
  let g := { f with short := fit f.short 0, long := fit f.long 1, pad := fit f.pad 2, extra := fit f.extra 3 }
  { s.stBytes (s.cFR f.ctx + 64 * (f.num % s.cFRN f.ctx)) g.bytes with fresh := s.fresh + 4 }

/-- Write the record of a dropped frame. What the spec gives no value for such a record is free: the time of one that was
never complete, the size of a frame that was not decoded, and output 0's place. -/
def State.dropRecord (s0 : State) (f : VFrame) (sized timed : Bool) : State :=
  let s := { s0 with fresh := s0.fresh + 4 }
  let v (i : Nat) : Nat := Config.freeNat (s.fresh + i)
  let g := { f with time := if timed then f.time else v 0 % 2 ^ 64, xoff := v 1 % 2 ^ 32, yoff := v 2 % 2 ^ 32, xmul := v 3 % 2 ^ 32, ymul := v 4 % 2 ^ 32,
                    width := if sized then f.width else v 5 % 65536, height := if sized then f.height else v 6 % 65536,
                    flags := setFlag f.flags flDropped, fb := 0xFF }
  { (s0.putFrameRecord g).cxCount f.ctx 12 31 16 1 with fresh := s.fresh + 7 }

/-- A frame is ready or has lost every output (R319): its record, and the event. -/
def State.frameFinish (s : State) (f : VFrame) : State :=
  let s1 := { s with vis := { s.vis with frames := s.vis.frames.filter fun g => ¬ (g.ctx = f.ctx ∧ g.num = f.num) } }
  let any := s.cSEN f.ctx 0 || s.cSEN f.ctx 1
  let ready := !any || decide (f.slot0 ≠ 0xFF) || decide (f.slot1 ≠ 0xFF)
  let v (i : Nat) : Nat := Config.freeNat (s.fresh + i) % 2 ^ 32
  let g := if f.slot0 ≠ 0xFF then f else { f with xoff := v 0, yoff := v 1, xmul := v 2, ymul := v 3 }
  let s2 := { s1 with fresh := s.fresh + 4 }
  if ready then
    (s2.putFrameRecord { g with flags := setFlag g.flags flReady }).latch
      (.frameReady f.ctx f.num f.fb f.slot0 f.slot1 (decide (f.flags / 2 ^ flConcealed % 2 = 1)))
  else s2.putFrameRecord g

def State.frameOf (s : State) (n num : Nat) : Option VFrame := s.vis.frames.find? fun f => f.ctx == n && f.num == num

/-- Replace a frame; one with nothing left to do is finished. -/
def State.setFrame (s : State) (f : VFrame) : State :=
  let s1 := { s with vis := { s.vis with frames := s.vis.frames.map fun g => if g.ctx = f.ctx ∧ g.num = f.num then f else g } }
  if f.done ∧ f.left = 0 then s1.frameFinish f else s1

def encq0 : Nat → List EncJob := fun _ => []
def size0 : Nat → Nat × Nat := fun _ => (0, 0)

/-- A frame is complete in its buffer: its Swage jobs are queued, and its encoder takes it. -/
def State.frameComplete (s : State) (f : VFrame) : State :=
  let outs := [0, 1].filter fun j => s.cSEN f.ctx j
  let jobs := outs.map fun j => { ctx := f.ctx, num := f.num, out := j : SwageJob }
  let e := s.cx f.ctx 15 46 46
  let encQ := if s.cENCEN f.ctx then tmod encq0 s.vis.encQ e (· ++ [{ ctx := f.ctx, num := f.num, fb := f.fb, w := f.width, h := f.height }]) else s.vis.encQ
  let s0 := { s with vis := { s.vis with swageQ := s.vis.swageQ ++ jobs, encQ := encQ } }
  let s1 := s0.modSctx f.ctx fun x => { x with sizes := tset size0 x.sizes f.fb (f.width, f.height) }
  s1.setFrame { f with done := true, left := outs.length }

/-- A frame of the context is in flight, or an encoder or JPEG job reads its buffers (R288). -/
def State.ctxBusy (s : State) (n : Nat) : Bool :=
  (s.vis.frames.any fun f => f.ctx == n) ||
  (s.vis.encQ.any fun e => e.2.any fun q => q.ctx == n) ||
  (s.vis.encs.any fun e => match e.2 with
    | some q => q.ctx == n
    | none => false) ||
  (s.vis.jpegQ.any fun j => bits (j.words.getD 0 0#64) 63 52 == n) ||
  (match s.vis.jpeg with
    | some j => bits (j.words.getD 0 0#64) 63 52 == n
    | none => false) ||
  (s.vis.decs.any fun e => match e.2 with
    | some d => d.ctx == n
    | none => false)

/-- At an edge, DRAINING contexts with nothing in flight become FREE. -/
def State.drained (s : State) : State :=
  ((s.listedCtxs.filter fun n => s.cSTATE n == 2 && !s.ctxBusy n).foldl (fun t n => t.setCx n 0 63 62 0) s).regroup

end Sys2Proof.Machine
end

