-- ==== Sys2Proof/Machine/RawPorts.lean ====
section
/-!
DEFINITION. The raw ports: how samples form lines and frames (R289 to R293), and the ISP's completion of
a frame (R294, R295). Each row is a sampled event of a port; a level that the port does not wait for
changes nothing.
-/
namespace Sys2Proof.Machine

def rawPort0 : Nat → RawPort := fun _ => {}
def State.rawPort (s : State) (p : Nat) : RawPort := tget rawPort0 s.vis.ports p
def State.setRawPort (s : State) (p : Nat) (x : RawPort) : State :=
  { s with vis := { s.vis with ports := tset rawPort0 s.vis.ports p x } }

def State.rawPresent (s : State) (p : Nat) : Bool :=
  decide (p < 8 ∧ s.getF F.GLB_CAP_VIDEO_RAWPORT_PRESENT / 2 ^ p % 2 = 1)
def State.rawState (s : State) (p : Nat) : Nat := s.getF (F.RAW_STATUS_STATE p)
def State.setRawState (s : State) (p v : Nat) : State := s.setF (F.RAW_STATUS_STATE p) v

/-- An event on a port: nothing happens on an absent port, and inputs are ignored until EN is set (R323). -/
def rawEvent (p : Nat) (s : State) (f : State → Out) : Out :=
  if s.phase ≠ .up then unreached s
  else if s.rawPresent p = false then .refused .noSuchUnit
  else if s.getF (F.RAW_CTRL_EN p) = 0 then .next s
  else f s

/-- The ACTIVE raw context of a port. -/
def State.rawCtx (s : State) (p : Nat) : Option Nat := s.activeCtxs.find? fun n => !s.cNET n && s.cx n 0 57 55 == p

/-- The shadow parameter set of a port, by word. (DEDUCED, log 53) -/
def State.ispShadow (s : State) (p : Nat) : Tbl W32 :=
  s.regs.filterMap fun e =>
    if 0x710000 + 0x4000 * p ≤ e.1 ∧ e.1 < 0x714000 + 0x4000 * p then some ((e.1 - 0x710000 - 0x4000 * p) / 4, e.2) else none

/-- A pending commit is made at a frame open (R295). (DEDUCED, log 53) -/
def State.ispCommit (s : State) (p : Nat) : State :=
  if s.getF (F.RAW_STATUS_COMMIT_PENDING p) = 0 then s
  else (s.setRawPort p { s.rawPort p with set := s.ispShadow p }).setF (F.RAW_STATUS_COMMIT_PENDING p) 0

/-- The frame's context takes a number and a buffer for it; with no buffer free it is dropped (R293). -/
def State.rawAllocate (s : State) (n : Nat) (f : RawFrame) : RawFrame × State :=
  let (num, s1) := s.takeNum n
  match s1.fbNext n with
  | none =>
    let v : VFrame := { ctx := n, num := num, flags := 2 ^ flNoFb, width := f.w, height := f.h }
    ({ f with ctx := some n, num := num }, s1.dropRecord v true false)
  | some i =>
    let v : VFrame := { ctx := n, num := num, fb := i, width := f.w, height := f.h }
    let s2 := s1.fbTake n i
    ({ f with ctx := some n, num := num, fb := some i }, { s2 with vis := { s2.vis with frames := s2.vis.frames ++ [v] } })

/-- VS becomes active. -/
def execRawFrameOpen (p : Nat) (s : State) : Out :=
  rawEvent p s fun s =>
    if s.rawState p ≠ 1 then .refused .cannotOccur
    else
      let s1 := (s.ispCommit p).addF (F.RAW_FRAMES_COUNT p) 1
      let (w, h) := s.rawSize p
      let f : RawFrame := { w := w, h := h, fmt := s.getF (F.RAW_CTRL_FORMAT p), set := (s1.rawPort p).set }
      let (g, s2) := match s.rawCtx p with
        | some n => s1.rawAllocate n f
        | none => (f, s1)
      .next ((s2.setRawPort p { s2.rawPort p with frame := some g }).setRawState p 2)

/-- A line closes: one with no pixels is none; a short one is padded; one beyond HEIGHT is discarded. -/
def RawFrame.closeLine (f : RawFrame) (pad : Nat) : RawFrame :=
  match f.cur with
  | none => f
  | some [] => { f with cur := none, cut := false }
  | some px =>
    if f.count < f.h then
      let isShort := decide (px.length < f.w)
      { f with cur := none, cut := false, count := f.count + 1,
               lines := if f.fb.isSome then f.lines ++ [px ++ List.replicate (f.w - px.length) pad] else f.lines,
               short := f.short + (if isShort then 1 else 0), long := f.long + (if f.cut then 1 else 0),
               flags := if isShort then setFlag f.flags 0 else if f.cut then setFlag f.flags 1 else f.flags }
    else { f with cur := none, cut := false, count := f.count + 1, extra := f.extra + 1, flags := setFlag f.flags 3 }

/-- HS becomes active: the open line closes and a new one opens. -/
def execRawLineStart (p : Nat) (s : State) : Out :=
  rawEvent p s fun s =>
    match (s.rawPort p).frame with
    | none => .next s
    | some f =>
      .next (s.setRawPort p { s.rawPort p with frame := some { f.closeLine (s.getF (F.RAW_PAD_PAD p)) with cur := some [] } })

/-- A sample with DE active. -/
def execRawPixel (p d : Nat) (s : State) : Out :=
  rawEvent p s fun s =>
    let stray := s.addF (F.RAW_STRAY_COUNT p) 1
    match (s.rawPort p).frame with
    | none => .next stray
    | some f => match f.cur with
      | none => .next stray
      | some px =>
        let g := if px.length < f.w then { f with cur := some (px ++ [d % 65536]) } else { f with cut := true }
        .next (s.setRawPort p { s.rawPort p with frame := some g })

/-- The open frame closes: pad lines complete it, and it goes to the ISP. -/
def State.rawClose (s : State) (p now : Nat) (timeout : Bool) : State :=
  match (s.rawPort p).frame with
  | none => s
  | some f0 =>
    let padv := s.getF (F.RAW_PAD_PAD p)
    let f := f0.closeLine padv
    let miss := f.h - f.count
    let flags := (if 0 < miss then setFlag f.flags 2 else f.flags) + (if timeout then 2 ^ 4 else 0)
    let g := { f with lines := f.lines ++ List.replicate miss (List.replicate f.w padv), pad := miss, flags := flags, time := now }
    let x := s.rawPort p
    s.setRawPort p { x with frame := none, isp := if g.fb.isSome then x.isp ++ [g] else x.isp }

/-- VS becomes inactive: it closes the open frame; a port that waits for it now awaits VS active. -/
def execRawFrameClose (p now : Nat) (s : State) : Out :=
  rawEvent p s fun s =>
    match s.rawState p with
    | 2 => .next ((s.rawClose p now false).setRawState p 1)
    | 3 => .next (s.setRawState p 1)
    | _ => .refused .cannotOccur

/-- TIMEOUT_US passes without HS or DE in an open frame. -/
def execRawTimeout (p now : Nat) (s : State) : Out :=
  rawEvent p s fun s =>
    if s.rawState p ≠ 2 then .refused .cannotOccur else .next ((s.rawClose p now true).setRawState p 3)

/-- A write of RAW_ISP_COMMIT. -/
def execRawIspCommit (port : Port) (p : Nat) (w : W32) (s : State) : Out :=
  hostWrite port s fun s =>
    if s.rawPresent p = false then s
    else if w.toNat % 2 = 1 then s.setF (F.RAW_STATUS_COMMIT_PENDING p) 1 else s

/-- The ISP writes the oldest closed frame of a port, its chroma and its statistics (R294 to R300).
(DEDUCED, log 53) (DEDUCED, log 54) -/
def execIspFrameComplete (p : Nat) (s : State) : Out :=
  if s.phase ≠ .up then .refused .cannotOccur
  else if s.rawPresent p = false then .refused .noSuchUnit
  else match (s.rawPort p).isp with
  | [] => .refused .cannotOccur
  | f :: l =>
    let s1 := s.setRawPort p { s.rawPort p with isp := l }
    match f.ctx, f.fb with
    | some n, some i =>
      let c : IspCfg := { w := f.w, h := f.h, fmt := f.fmt, p010 := s.cP010 n, set := f.set }
      let s2 := s1.putFrame f.w f.h c.p010 (s.fbAddr n i) (c.luma f.lines) fun k => c.chroma f.lines k
      let s3 := s2.putStats c f.lines (s.cAUX n + 8192 * i)
      match s3.frameOf n f.num with
      | none => .next s3
      | some v => .next (s3.frameComplete { v with flags := f.flags, short := f.short, long := f.long, pad := f.pad, extra := f.extra,
                                                   time := f.time })
    | _, _ => .next s1

/-- A port is disabled: its open frame closes as it stands (R322). (DEDUCED, log 53) -/
def State.rawDisable (s : State) (p now : Nat) : State := (s.rawClose p now false).setRawState p 0

end Sys2Proof.Machine
end

