-- ==== Sys2Proof/Machine/Swage.lean ====
section
/-!
DEFINITION. The Swage engines: they cut a complete frame into model input in the slots of an object
(R315 to R318). Every calculation is FP32, one rounding to an operation, in the order written.
-/
namespace Sys2Proof.Machine

/-! ### Sampling (R316) -/

/-- An FP32 code as a whole number below it and the fraction above. -/
def f32Floor (a : Nat) : Int :=
  match fdec fmtF32 a with
  | .fin neg m e =>
    let n : Nat := if 0 ≤ e then m * 2 ^ e.toNat else m / 2 ^ (-e).toNat
    let exact := decide (0 ≤ e) || decide (m % 2 ^ (-e).toNat = 0)
    if neg then (if exact then -(n : Int) else -(n : Int) - 1) else n
  | _ => 0

def f32Int (i : Int) : Nat := f32OfInt i
/-- One half, and other constants, as FP32 codes. -/
def f32Half : Nat := 0x3F000000
def f32Quarter : Nat := 0x3E800000
def f32One : Nat := 0x3F800000

/-- An index clamped to a range. (PRESUMED, log 55) -/
def clampIdx (lo hi i : Int) : Nat := (clampTo lo hi i).toNat

/-- The sample position of an output coordinate: `c0 + (o - p + 0.5) * cw / sw - 0.5`. -/
def samplePos (c0 o p cw sw : Nat) : Nat :=
  let t := f32Add (f32Int ((o : Int) - p)) f32Half
  f32Sub (f32Add (f32Nat c0) (f32Quot (f32Mul t (f32Nat cw)) (f32Nat sw))) f32Half

/-- `(1 - f) * a + f * b`. -/
def f32Mix (f a b : Nat) : Nat := f32Add (f32Mul (f32Sub f32One f) a) (f32Mul f b)

/-- Bilinear sampling of a plane at (x, y), its indices clamped to a rectangle. -/
def bilinear (p : Img) (r : Crop) (x y : Nat) : Nat :=
  let x0 := f32Floor x
  let y0 := f32Floor y
  let fx := f32Sub x (f32Int x0)
  let fy := f32Sub y (f32Int y0)
  let at' (dx dy : Int) : Nat :=
    f32Nat (p (clampIdx r.x (r.x + r.w - 1) (x0 + dx)) (clampIdx r.y (r.y + r.h - 1) (y0 + dy)))
  f32Mix fy (f32Mix fx (at' 0 0) (at' 1 0)) (f32Mix fx (at' 0 1) (at' 1 1))

/-- The cubic convolution kernel of parameter -0.5 at distance `t`: within 1, then from 1 to 2. -/
def cubicNear (t : Nat) : Nat :=
  f32Add (f32Mul (f32Mul (f32Sub (f32Mul 0x3FC00000 t) 0x40200000) t) t) f32One
def cubicFar (t : Nat) : Nat :=
  f32Add (f32Mul (f32Sub (f32Mul (f32Sub 0x40200000 (f32Mul f32Half t)) t) 0x40800000) t) 0x40000000

/-- The four weights for a fraction. -/
def cubicWeights (f : Nat) : List Nat :=
  [cubicFar (f32Add f32One f), cubicNear f, cubicNear (f32Sub f32One f), cubicFar (f32Sub 0x40000000 f)]

def f32Dot : List Nat → List Nat → Nat
  | a :: as, b :: bs => f32Add (f32Mul a b) (f32Dot as bs)
  | _, _ => 0

/-- Bicubic sampling. -/
def bicubic (p : Img) (r : Crop) (x y : Nat) : Nat :=
  let x0 := f32Floor x
  let y0 := f32Floor y
  let wx := cubicWeights (f32Sub x (f32Int x0))
  let wy := cubicWeights (f32Sub y (f32Int y0))
  let at' (dx dy : Int) : Nat :=
    f32Nat (p (clampIdx r.x (r.x + r.w - 1) (x0 + dx)) (clampIdx r.y (r.y + r.h - 1) (y0 + dy)))
  f32Dot wy ([-1, 0, 1, 2].map fun dy => f32Dot wx ([-1, 0, 1, 2].map fun dx => at' dx dy))

/-! ### Colour (R316) -/

/-- A ratio of whole numbers in FP32. -/
def f32Ratio (n d : Nat) : Nat := f32Quot (f32Nat n) (f32Nat d)

/-- What MATRIX names: limited range, and the factors of Cr in R, of Cb in B, and of Cb and Cr in G. -/
def limitedRange (m : Nat) : Bool := decide (m < 2)
/-- The factors of a colour matrix. (PRESUMED, log 55) -/
def colourFactors (m : Nat) : List Nat :=
  if m % 2 = 0 then [f32Ratio 1402 1000, f32Ratio 1772 1000, f32Ratio 202008 587000, f32Ratio 419198 587000]
  else [f32Ratio 15748 10000, f32Ratio 18556 10000, f32Ratio 13397432 71520000, f32Ratio 33480248 71520000]

/-- Luma and chroma expanded to 0 to 255 and about 0. -/
def expandY (m y : Nat) : Nat :=
  if limitedRange m then f32Quot (f32Mul (f32Sub y (f32Nat 16)) (f32Nat 255)) (f32Nat 219) else y
def expandC (m c : Nat) : Nat :=
  let d := f32Sub c (f32Nat 128)
  if limitedRange m then f32Quot (f32Mul d (f32Nat 255)) (f32Nat 224) else d

/-- R, G and B. -/
def toRgb (m y cb cr : Nat) : List Nat :=
  let k := colourFactors m
  let l := expandY m y
  let b := expandC m cb
  let r := expandC m cr
  [f32Add l (f32Mul (k.getD 0 0) r), f32Sub (f32Sub l (f32Mul (k.getD 2 0) b)) (f32Mul (k.getD 3 0) r),
   f32Add l (f32Mul (k.getD 1 0) b)]

/-! ### A picture in a frame buffer -/

/-- Where a picture lies. -/
structure Pic where
  base : Nat
  w : Nat
  h : Nat
  p010 : Bool
deriving DecidableEq, Repr

/-- A sample in 8-bit units: a 10-bit value is divided by 4, exactly. -/
def State.picSample (s : State) (c : Pic) (row x : Nat) : Nat :=
  let a := c.base + framePitch c.w c.p010 * row
  if c.p010 then s.ldN (a + 2 * x) 2 / 64 else s.ld8 (a + x)

/-- FP32 of a sampled value in 8-bit units. -/
def scale8 (p010 : Bool) (v : Nat) : Nat := if p010 then f32Mul v f32Quarter else v

def State.picLuma (s : State) (c : Pic) : Img := fun x y => s.picSample c y x
def State.picChroma (s : State) (c : Pic) (i : Nat) : Img := fun x y => s.picSample c (c.h + y) (2 * x + i)

/-- The codes of the output pixel (ox, oy), one per channel. -/
def State.swagePixel (s : State) (ws : List W32) (c : Pic) (cr : Crop) (r : Region) (ox oy : Nat) : List Nat :=
  let n := pCHANNELS ws
  if ox < r.x ∨ r.x + r.w ≤ ox ∨ oy < r.y ∨ r.y + r.h ≤ oy then
    (List.range n).map fun i => pF ws 5 (63 - 8 * i) (56 - 8 * i)
  else
    let sx := samplePos cr.x ox r.x cr.w r.w
    let sy := samplePos cr.y oy r.y cr.h r.h
    let y := scale8 c.p010 ((if pF ws 1 30 29 = 1 then bicubic else bilinear) (s.picLuma c) cr sx sy)
    let half : Crop := ⟨cr.x / 2, cr.y / 2, (cr.x + cr.w + 1) / 2 - cr.x / 2, (cr.y + cr.h + 1) / 2 - cr.y / 2⟩
    let chroma (i : Nat) : Nat :=
      scale8 c.p010 (bilinear (s.picChroma c i) half (f32Mul sx f32Half) (f32Sub (f32Mul sy f32Half) f32Quarter))
    let m := pF ws 1 24 23
    let rgb := toRgb m y (chroma 0) (chroma 1)
    let p := match pF ws 1 26 25 with
      | 0 => rgb
      | 1 => rgb.reverse
      | _ => [expandY m y]
    (List.range n).map fun i =>
      let q := f32Add (f32Mul (pF ws (2 + i) 63 32) (p.getD i 0)) (pF ws (2 + i) 31 0)
      intCode 8 (fToInt 8 (fdec fmtF32 q))

/-- The bytes of an output, by LAYOUT. -/
def State.swageBytes (s : State) (ws : List W32) (c : Pic) (cr : Crop) (r : Region) : List Nat :=
  let px := (List.range (pOH ws)).flatMap fun oy => (List.range (pOW ws)).map fun ox => s.swagePixel ws c cr r ox oy
  if pF ws 1 28 27 = 0 then px.flatten else (List.range (pCHANNELS ws)).flatMap fun i => px.map fun v => v.getD i 0

/-! ### Jobs (R317, R318) -/

def swage0 : Nat → Option (SwageJob × List W32) := fun _ => none
def State.setSwage (s : State) (e : Nat) (j : Option (SwageJob × List W32)) : State :=
  { s with vis := { s.vis with swages := tset swage0 s.vis.swages e j } }

/-- A free engine takes the next queued job, with its profile as it stands. -/
def execSwageJobStart (e : Nat) (s : State) : Out :=
  if s.phase ≠ .up then .refused .cannotOccur
  else if 4 ≤ e then .refused .noSuchUnit
  else match tget swage0 s.vis.swages e, s.vis.swageQ with
    | none, j :: l =>
      let s1 := { s with vis := { s.vis with swageQ := l } }
      .next (s1.setSwage e (some (j, s.profile (s.cSPROF j.ctx j.out))))
    | _, _ => .refused .cannotOccur

def Sctx.slots (x : Sctx) (j : Nat) : List Nat := if j = 0 then x.slots0 else x.slots1
def Sctx.hold (x : Sctx) (j k : Nat) : Sctx := if j = 0 then { x with slots0 := k :: x.slots0 } else { x with slots1 := k :: x.slots1 }

/-- The place of output 0 in the frame, for the record: XOFF, YOFF, XMUL and YMUL. -/
def VFrame.placed (f : VFrame) (cr : Crop) (r : Region) : VFrame :=
  let off (p c s w : Nat) : Nat := f32Sub (f32Nat p) (f32Quot (f32Mul (f32Nat c) (f32Nat s)) (f32Nat w))
  { f with xoff := off r.x cr.x r.w cr.w, yoff := off r.y cr.y r.h cr.h,
           xmul := f32Quot (f32Nat cr.w) (f32Nat r.w), ymul := f32Quot (f32Nat cr.h) (f32Nat r.h) }

/-- A job ends: it has written its slot, or skipped it as bad or busy. -/
def State.swageEnd (s : State) (j : SwageJob) (ws : List W32) : State :=
  match s.frameOf j.ctx j.num with
  | none => s
  | some f =>
    let n := j.ctx
    let slot := if s.cSNSLOT n j.out = 0 then 0 else j.num % s.cSNSLOT n j.out
    let cr := cropOf ws f.width f.height
    let r := regionOf ws cr
    if profileOk ws f.width f.height = false then s.setFrame { f with flags := setFlag f.flags flSwageBad, left := f.left - 1 }
    else if slot ∈ (s.sctx n).slots j.out then s.setFrame { f with flags := setFlag f.flags (11 + j.out), left := f.left - 1 }
    else
      let c : Pic := { base := s.fbAddr n f.fb, w := f.width, h := f.height, p010 := s.cP010 n }
      let s1 := match s.wrObj (s.cPART n) (s.cSOBJ n j.out) (pSLOT ws * slot) (s.swageBytes ws c cr r) false with
        | .ok _ t => t
        | .bad _ _ t => t
      let g := if j.out = 0 then { f.placed cr r with slot0 := slot } else { f with slot1 := slot }
      (s1.modSctx n fun x => x.hold j.out slot).setFrame { g with left := f.left - 1 }

/-- A Team whose slice holds part of the slot that a job writes, and which is not ON. -/
def State.swageHeld (s : State) (j : SwageJob) (ws : List W32) : Option Nat :=
  let n := j.ctx
  let slot := if s.cSNSLOT n j.out = 0 then 0 else j.num % s.cSNSLOT n j.out
  let x := s.obj (s.cPART n) (s.cSOBJ n j.out)
  (segRange (pSLOT ws * slot) (pSLOT ws)).findSome? fun i => match (x.segs[i]?).bind fun g => g.pool.bind poolTeam with
    | some t => if s.teamOn t then none else some t
    | none => none

/-- A job ends. Its write wakes a gated Team and waits for it (R84). -/
def execSwageJobComplete (e : Nat) (s : State) : Out :=
  if s.phase ≠ .up then .refused .cannotOccur
  else if 4 ≤ e then .refused .noSuchUnit
  else match tget swage0 s.vis.swages e with
    | none => .refused .cannotOccur
    | some (j, ws) => match s.swageHeld j ws with
      | some t => .next (s.reachTeam t)
      | none => .next ((s.setSwage e none).swageEnd j ws)

end Sys2Proof.Machine
end

