-- ==== Sys2Proof/Machine/Ingest.lean ====
section
/-!
DEFINITION. Received Ethernet frames: their layers, which destination takes them (R301, R357), and camera
packets: matching, access units and the jitter ring (R301 to R307).
-/
namespace Sys2Proof.Machine

/-! ### Bytes of a frame, in network order -/

/-- The number that bytes spell, the first the most significant. -/
def beNat : List Nat → Nat
  | [] => 0
  | b :: bs => b % 256 * 256 ^ bs.length + beNat bs

def beAt (b : List Nat) (off n : Nat) : Nat := beNat ((b.drop off).take n)

/-- What a frame is, down to UDP. -/
inductive Layers where
  /-- Not IP: the EtherType and what follows it. -/
  | ether (etype : Nat) (body : List Nat)
  /-- IP that is not UDP, or is cut short. -/
  | ip
  /-- A fragment, or IPv6 with extension headers before UDP: destination address and UDP port, where it has them. -/
  | odd (v6 : Bool) (dst port : Nat)
  /-- UDP: source and destination address, ports, checksum and payload. IPv4 addresses are mapped as ::FFFF:a.b.c.d.
  `good` says that a nonzero checksum verifies. -/
  | udp (v6 : Bool) (src dst sport dport sum : Nat) (good : Bool) (body : List Nat)
deriving DecidableEq, Repr

/-- One's complement sum of 16-bit words. -/
def onesSum : List Nat → Nat
  | [] => 0
  | [a] => a % 256 * 256
  | a :: b :: l => a % 256 * 256 + b % 256 + onesSum l

def fold16 (n : Nat) : Nat := if n = 0 then 0 else (n - 1) % 65535 + 1

/-- The IPv4 address as an IPv6 one. -/
def mapped4 (a : Nat) : Nat := 0xFFFF * 2 ^ 32 + a

/-- UDP at the start of `u`, between two addresses. -/
def udpLayer (v6 : Bool) (src dst : Nat) (pseudo u : List Nat) : Layers :=
  let len := beAt u 4 2
  if u.length < 8 ∨ len < 8 ∨ u.length < len then .ip
  else
    let d := u.take len
    .udp v6 src dst (beAt u 0 2) (beAt u 2 2) (beAt u 6 2) (decide (fold16 (onesSum pseudo + len + 17 + onesSum d) = 65535)) (d.drop 8)

/-- Walk the extension headers of IPv6 to UDP: the destination port where it is reached. Their numbers and lengths are those
of the internet standards. (PRESUMED, log 111) -/
def extPort : Nat → Nat → List Nat → Option Nat
  | 0, _, _ => none
  | fuel + 1, nh, b =>
    if nh = 17 then some (beAt b 2 2)
    else if nh ∈ [0, 43, 60, 135, 139, 140, 253, 254] then extPort fuel (beAt b 0 1) (b.drop (8 * (beAt b 1 1 + 1)))
    else if nh = 51 then extPort fuel (beAt b 0 1) (b.drop (4 * (beAt b 1 1 + 2)))
    else if nh = 44 then (if beAt b 2 2 / 8 = 0 then extPort fuel (beAt b 0 1) (b.drop 8) else none)
    else none

def ipLayers (etype : Nat) (b : List Nat) : Layers :=
  if etype = 0x0800 ∧ 20 ≤ b.length then
    let hl := beAt b 0 1 % 16 * 4
    let body := b.drop hl
    let dst := mapped4 (beAt b 16 4)
    if beAt b 9 1 ≠ 17 then .ip
    else if beAt b 6 2 % 0x4000 ≠ 0 then (if beAt b 6 2 % 0x2000 = 0 then .odd false dst (beAt body 2 2) else .ip)
    else udpLayer false (mapped4 (beAt b 12 4)) dst ((b.drop 12).take 8) body
  else if etype = 0x86DD ∧ 40 ≤ b.length then
    let dst := beAt b 24 16
    let body := b.drop 40
    if beAt b 6 1 = 17 then udpLayer true (beAt b 8 16) dst ((b.drop 8).take 32) body
    else match extPort (body.length + 1) (beAt b 6 1) body with
      | some p => .odd true dst p
      | none => .ip
  else .ether etype b

/-- The layers of an Ethernet frame without its check sequence, with at most one IEEE 802.1Q tag. -/
def layersOf (f : List Nat) : Layers :=
  if beAt f 12 2 = 0x8100 then ipLayers (beAt f 16 2) (f.drop 18) else ipLayers (beAt f 12 2) (f.drop 14)

/-! ### Which destination takes a frame (R357) -/

/-- Word `i` of a 64-bit table, low half first. -/
def State.rd64 (s : State) (off : Nat) : Nat := (s.rd off).toNat + (s.rd (off + 4)).toNat * 2 ^ 32

/-- The ingest addresses of port `f`'s own table that are valid (Table HF-6). -/
def State.ingestAddrs (s : State) (f : Nat) : List Nat :=
  let base := 0x602000 + 128 * f
  let valid := s.rd64 (base + 72)
  ((List.range 4).filter fun i => decide (valid / 2 ^ i % 2 = 1)).map (fun i => s.rd64 (base + 16 * i) * 2 ^ 64 + s.rd64 (base + 16 * i + 8)) ++
    (if valid / 16 % 2 = 1 then [mapped4 (s.rd64 (base + 64) % 2 ^ 32)] else [])

/-- The addresses that port `f` answers: its own unless moved away, and the other's while it holds them (R359). -/
def State.ingestOn (s : State) (f : Nat) : List Nat :=
  (if f ∈ s.fab.moved then [] else s.ingestAddrs f) ++ (if 1 - f ∈ s.fab.moved then s.ingestAddrs (1 - f) else [])

/-- The device's own Harness address on a port's plane. -/
def State.harnessAddr (s : State) (f : Nat) : Nat :=
  let base := 0x601000 + 64 * s.getF F.FAB_ID_ID
  s.rd64 (base + 16 + 16 * f) * 2 ^ 64 + s.rd64 (base + 24 + 16 * f)

/-- A Harness message: the message's bytes, and whether its UDP checksum is acceptable (R360). -/
def State.harnessOf (s : State) (f : Nat) (frame : List Nat) : Option (List Nat × Bool) :=
  match layersOf frame with
  | .ether e b => if e = s.getF F.FAB_ETYPE_ETYPE then some (b, true) else none
  | .udp true _ dst _ dport sum good b =>
    if dst = s.harnessAddr f ∧ dport = s.getF F.FAB_ETYPE_UDPPORT then
      some (b, if sum = 0 then s.flag F.FAB_CTRL_ZCSUM_RX else good)
    else none
  | _ => none

def isPtp (frame : List Nat) : Bool :=
  match layersOf frame with
  | .ether e _ => decide (e = 0x88F7)
  | .udp _ _ _ _ dport _ _ _ => decide (dport = 319 ∨ dport = 320)
  | _ => false

def State.inIngestPorts (s : State) (port : Nat) : Bool :=
  decide (s.getF F.VIS_INGEST_PORTS_LO ≤ port ∧ port ≤ s.getF F.VIS_INGEST_PORTS_HI)

/-- What ingest does with a frame. -/
inductive Camera where
  | no
  /-- A fragment or an extension header in range. -/
  | drop
  /-- RTP or RTCP: source address, destination port and UDP payload. -/
  | packet (src dport : Nat) (b : List Nat)
deriving DecidableEq, Repr

def State.cameraOf (s : State) (f : Nat) (frame : List Nat) : Camera :=
  if (s.harnessOf f frame).isSome ∨ isPtp frame then .no
  else match layersOf frame with
  | .odd _ dst port => if dst ∈ s.ingestOn f ∧ s.inIngestPorts port then .drop else .no
  | .udp _ src dst _ dport _ _ b =>
    if dst ∈ s.ingestOn f ∧ s.inIngestPorts dport ∧ beAt b 0 1 / 64 = 2 then .packet src dport b else .no
  | _ => .no

/-- A received frame needs a port that is UP. -/
def portEvent (f : Nat) (s : State) (k : State → Out) : Out :=
  if s.phase ≠ .up then unreached s
  else if 2 ≤ f ∨ s.getF (F.FAB_PORT_STATE f) = 0 then .refused .noSuchUnit
  else if s.getF (F.FAB_PORT_STATE f) ≠ 2 then .refused .cannotOccur
  else k s

/-- The frame goes to the host cores. -/
def State.passToHost (s : State) (f : Nat) (frame : List Nat) : State :=
  { s with fab := { s.fab with toHost := s.fab.toHost ++ [(f, frame)] } }

/-! ### RTP (R302, R303) -/

/-- The fields of an RTP packet that the device uses; the payload is what is left without CSRC list, header
extension and padding. -/
structure Rtp where
  marker : Bool
  pt : Nat
  seq : Nat
  ts : Nat
  ssrc : Nat
  payload : List Nat
deriving DecidableEq, Repr

def rtpOf (b : List Nat) : Rtp :=
  let b0 := beAt b 0 1
  let b1 := beAt b 1 1
  let r := b.drop (12 + 4 * (b0 % 16))
  let r1 := if b0 / 16 % 2 = 1 then r.drop (4 + 4 * beAt r 2 2) else r
  let r2 := if b0 / 32 % 2 = 1 then r1.take (r1.length - r1.getLastD 0 % 256) else r1
  { marker := decide (b1 / 128 = 1), pt := b1 % 128, seq := beAt b 2 2, ts := beAt b 4 4, ssrc := beAt b 8 4, payload := r2 }

/-- The payload type is supported for the codec (Table VF-6). -/
def payloadOk (codec : Nat) (p : List Nat) : Bool :=
  match p with
  | [] => false
  | b0 :: _ =>
    match codec with
    | 0 => decide ((1 ≤ b0 % 32 ∧ b0 % 32 ≤ 24) ∨ b0 % 32 = 28)
    | 1 => decide (b0 / 2 % 64 ≤ 49)
    | _ => true

/-- The units of an aggregation: each behind its size in two bytes. -/
def aggregated : Nat → List Nat → List (List Nat)
  | 0, _ => []
  | fuel + 1, l => if l.length < 2 then [] else (l.drop 2).take (beAt l 0 2) :: aggregated fuel (l.drop (2 + beAt l 0 2))

/-- What depacketising has formed: the units that are whole, and the fragments so far of one that is not. -/
structure Depack where
  whole : List (List Nat) := []
  part : Option (List Nat) := none
deriving DecidableEq, Repr

/-- A fragment with its start and end bits: the first one brings the unit's header. -/
def Depack.fragment (x : Depack) (first last : Bool) (hdr body : List Nat) : Depack :=
  let p := if first then some (hdr ++ body) else x.part.map (· ++ body)
  if last then { whole := x.whole ++ p.toList } else { x with part := p }

/-- A number in the LEB128 form of AV1, and what follows it. -/
def leb128 : List Nat → Nat × List Nat
  | [] => (0, [])
  | b :: l => if b < 128 then (b, l) else (b % 128 + 128 * (leb128 l).1, (leb128 l).2)

/-- The OBU elements of a payload: the last of `w` has no length before it; with `w` 0 every one has. -/
def obuElements : Nat → Nat → List Nat → List (List Nat)
  | 0, _, _ => []
  | fuel + 1, w, l =>
    if l = [] then []
    else if w = 1 then [l]
    else
      let n := (leb128 l).1
      let r := (leb128 l).2
      r.take n :: obuElements fuel (w - 1) (r.drop n)

/-- One payload of a unit (Table VF-6). The forms are those of the standards that the table names. (PRESUMED, log 111) -/
def Depack.add (codec : Nat) (x : Depack) (p : List Nat) : Depack :=
  let b0 := beAt p 0 1
  match codec with
  | 0 =>
    if b0 % 32 = 24 then { whole := x.whole ++ aggregated p.length (p.drop 1) }
    else if b0 % 32 = 28 then
      x.fragment (decide (beAt p 1 1 / 128 = 1)) (decide (beAt p 1 1 / 64 % 2 = 1)) [b0 / 32 * 32 + beAt p 1 1 % 32] (p.drop 2)
    else { whole := x.whole ++ [p] }
  | 1 =>
    if b0 / 2 % 64 = 48 then { whole := x.whole ++ aggregated p.length (p.drop 2) }
    else if b0 / 2 % 64 = 49 then
      x.fragment (decide (beAt p 2 1 / 128 = 1)) (decide (beAt p 2 1 / 64 % 2 = 1)) [b0 / 128 * 128 + beAt p 2 1 % 64 * 2 + b0 % 2, beAt p 1 1] (p.drop 3)
    else { whole := x.whole ++ [p] }
  | _ =>
    let l := match obuElements p.length (b0 / 16 % 4) (p.drop 1) with
      | [] => []
      | e :: r => if b0 / 128 = 1 then (x.part.getD [] ++ e) :: r else e :: r
    if b0 / 64 % 2 = 1 then { whole := x.whole ++ l.dropLast, part := l.getLast? } else { whole := x.whole ++ l }

/-- The NAL units, or the OBU elements, of an access unit's payloads (R303). -/
def depacketise (codec : Nat) (ps : List (List Nat)) : List (List Nat) := (ps.foldl (Depack.add codec) {}).whole

/-- The tier of R302 at which a context matches a packet; `none` where it does not. -/
def State.matchTier (s : State) (n src dport ssrc : Nat) : Option Nat :=
  let se := s.cx n 2 15 15 = 1
  let ie := s.cx n 2 14 14 = 1
  let okS := s.cx n 2 63 32 = ssrc
  let okI := (s.ctxWord n 3).toNat * 2 ^ 64 + (s.ctxWord n 4).toNat = src
  if s.cx n 2 31 16 ≠ dport ∨ (se ∧ ¬ okS) ∨ (ie ∧ ¬ okI) then none
  else some ((if se then 0 else 2) + (if ie then 0 else 1))

/-- The ACTIVE network context of the best tier. -/
def State.matchCtx (s : State) (src dport ssrc : Nat) : Option Nat :=
  [0, 1, 2, 3].findSome? fun t => s.activeCtxs.find? fun n => s.cNET n && s.matchTier n src dport ssrc == some t

/-! ### Access units (R304 to R307) -/

def AccessUnit.seqs (u : AccessUnit) : List Nat := u.pkts.map (·.seq)
def AccessUnit.lo (u : AccessUnit) : Nat := u.seqs.foldl min (u.seqs.headD 0)
def AccessUnit.hi (u : AccessUnit) : Nat := u.seqs.foldl max 0
def AccessUnit.cells (u : AccessUnit) : List Nat := u.pkts.flatMap (·.cells)
def AccessUnit.bytes (u : AccessUnit) : Nat := 64 * u.cells.length

/-- Ring bytes of a packet: its payload and a 16-byte header, rounded up to 64. -/
def pktBytes (payload : List Nat) : Nat := align64 (payload.length + 16)

/-- Forget a unit: its space returns, and a later packet of it is late. -/
def State.dropUnit (s : State) (n : Nat) (u : AccessUnit) (seq : Nat) : State :=
  let s1 := s.modSctx n fun x => { x with units := x.units.filter fun v => v.ts ≠ u.ts, used := x.used - u.bytes,
                                          gone := (u.ts, seq) :: x.gone, drops := seq :: x.drops }
  { s1 with vis := { s1.vis with released := s1.vis.released.filter fun e => e ≠ (n, u.ts) } }

/-- Discard an access unit with a DROPPED record and a flag: it takes its number unless it has one. -/
def State.discardUnit (s : State) (n : Nat) (u : AccessUnit) (seq flags : Nat) : State :=
  let (num, s1) := if u.stage = 0 then s.takeNum n else (u.num, s)
  (s1.dropUnit n u seq).dropRecord { ctx := n, num := num, rtpTs := u.ts, time := u.time, flags := flags } false (decide (u.stage ≠ 0))

/-- The unit has every packet it needs: its first is not preceded by a missing number, and it has no gap up to its
marker packet, or up to a packet of another timestamp that follows at once. -/
def Sctx.unitWhole (x : Sctx) (u : AccessUnit) : Bool :=
  let gap (i : Nat) : Bool := (x.missing.any fun m => m.1 == i) || decide (i ∈ x.lost)
  let last := u.marker.getD u.hi
  let got (i : Nat) : Bool := decide (i ∈ u.seqs)
  let ended := u.marker.isSome ||
    (decide (x.high.any fun h => last + 1 ≤ h) && !gap (last + 1) && !got (last + 1))
  decide (u.stage = 0 ∧ u.pkts ≠ []) && !gap (u.lo - 1) && ended && (List.range (last + 1 - u.lo)).all fun i => got (u.lo + i)

/-- Release a complete unit to its decoder. -/
def State.releaseUnit (s : State) (n : Nat) (u : AccessUnit) : State :=
  let s1 := s.modSctx n fun x => { x with
    units := x.units.map fun v => if v.ts = u.ts then { v with stage := 2 } else v, gone := (u.ts, u.hi) :: x.gone }
  { s1 with vis := { s1.vis with released := s1.vis.released ++ [(n, u.ts)] } }

/-- Units that have become whole are complete: they take their numbers in order, and with JITTER_US of 0 they
are released. -/
def State.completeUnits (s : State) (n now : Nat) : State :=
  ((s.sctx n).units.filter fun u => (s.sctx n).unitWhole u).foldl (fun t u =>
    let (num, t1) := t.takeNum n
    let v := { u with stage := 1, num := num, time := now }
    let t2 := t1.modSctx n fun x => { x with units := x.units.map fun w => if w.ts = u.ts then v else w }
    if t2.cx n 6 47 32 = 0 then t2.releaseUnit n v else t2) s

/-- Start afresh: every held unit is discarded, and decoding resumes at a random-access point (R307). A later packet of a unit
that is gone is late, unless its source has changed. -/
def State.resync (s : State) (n : Nat) (same : Bool) : State :=
  let s1 := (s.sctx n).units.foldl (fun t u => t.discardUnit n u u.hi 0) s
  s1.modSctx n fun x => { x with high := none, missing := [], lost := [], gone := if same then x.gone.map (fun g => (g.1, 131072)) else [],
                                 drops := [], noRef := true, needPs := true }

/-- The next `need` free cells of a ring of `size`, from `pos` on; the first argument bounds the search. -/
def freeCells (used : List Nat) (size : Nat) : Nat → Nat → Nat → List Nat
  | 0, _, _ => []
  | fuel + 1, pos, need =>
    if need = 0 then []
    else if pos % size ∈ used then freeCells used size fuel (pos + 1) need
    else pos % size :: freeCells used size fuel (pos + 1) (need - 1)

/-- The address of byte `i` of a packet in its cells. -/
def State.cellAddr (s : State) (n : Nat) (cells : List Nat) (i : Nat) : Nat := s.cJB n + 64 * cells.getD (i / 64) 0 + i % 64

/-- The cells that a packet takes: the next free ones from where the ring was last written (R306). (DEDUCED, log 58) -/
def State.cellsFor (s : State) (n : Nat) (payload : List Nat) : List Nat :=
  let used := (s.sctx n).units.flatMap AccessUnit.cells
  let need := pktBytes payload / 64
  freeCells used (s.cJBSIZE n / 64) (used.length + need) ((s.sctx n).put / 64) need

/-- Write a packet into its cells: a header of free bytes and the payload. -/
def State.putRing (s : State) (n : Nat) (cells payload : List Nat) : State :=
  let hdr := (List.range 16).map fun i => Config.freeNat (s.fresh + i) % 256
  let s1 := (numbered 0 (hdr ++ payload)).foldl (fun t e => t.st8 (s.cellAddr n cells e.1) e.2) s
  let s2 := cells.foldl (fun t c => t.ueClear (s.cJB n + 64 * c) 64) s1
  ({ s2 with fresh := s.fresh + 16 }).modSctx n fun x => { x with put := (64 * cells.getLastD 0 + 64) % s.cJBSIZE n }

/-- The payload of a packet as the ring holds it. -/
def State.pktPayload (s : State) (n : Nat) (p : Pkt) : List Nat := (List.range p.len).map fun i => s.ld8 (s.cellAddr n p.cells (16 + i))

/-- What the decoder reads of a unit: its payloads in sequence, depacketised. -/
def State.unitStream (s : State) (n : Nat) (u : AccessUnit) : List (List Nat) :=
  depacketise (s.cx n 0 54 53) ((sortBy Pkt.seq u.pkts).map (s.pktPayload n))

/-- The extended sequence number nearest to the highest received; `none` where it forces a resynchronisation. -/
def extendSeq (high : Option Nat) (seq : Nat) : Option Nat :=
  match high with
  | none => some (65536 + seq)
  | some h =>
    let d := (seq + 65536 - h % 65536) % 65536
    if d < 32768 then (if 3000 < d then none else some (h + d)) else some (h - (65536 - d))

/-- A new highest number: those between are missing since now. Old entries are forgotten. -/
def Sctx.arrive (x : Sctx) (e now : Nat) : Sctx :=
  let h := x.high.getD e
  let new := (List.range (e - h - 1)).map fun i => (h + 1 + i, now)
  let y := { x with high := some (max h e), missing := x.missing.filter (fun (m : Nat × Nat) => m.1 != e) ++ new }
  { y with gone := y.gone.filter fun g => e < g.2 + 32768, lost := y.lost.filter fun l => e < l + 32768 }

/-- Put units in order of their first packet. -/
def Sctx.insertUnit (x : Sctx) (u : AccessUnit) : Sctx :=
  { x with units := insertBy AccessUnit.lo u (x.units.filter fun v => v.ts ≠ u.ts) }

/-- A packet of a context, after its payload type matched. -/
def State.takePacket (s : State) (n now : Nat) (r : Rtp) : State :=
  let x := s.sctx n
  let moved := x.high.isSome ∧ ((s.cx n 2 15 15 = 0 ∧ x.ssrc ≠ r.ssrc) ∨ extendSeq x.high r.seq = none)
  let s1 := if moved then s.resync n (x.ssrc == r.ssrc) else s
  let e := (extendSeq (s1.sctx n).high r.seq).getD 0
  let y := (s1.sctx n)
  if e ∈ y.lost ∨ y.gone.any (fun g => g.1 == r.ts) then (s1.modSctx n fun x => { x.arrive e now with ssrc := r.ssrc }).cxCount n 13 63 48 1
  else if y.units.any (fun u => decide (e ∈ u.seqs)) then s1
  else
    let s2 := s1.modSctx n fun x => { x.arrive e now with ssrc := r.ssrc }
    let u := ((s2.sctx n).units.find? fun u => u.ts == r.ts).getD { ts := r.ts, firstAt := now }
    let size := pktBytes r.payload
    if payloadOk (s.cx n 0 54 53) r.payload = false then (s2.addF F.VIS_PKT_DROP_COUNT 1).discardUnit n u e (2 ^ flUnsupported)
    else if s.cJBSIZE n < (s2.sctx n).used + size then (s2.discardUnit n u e (2 ^ flOverflow)).cxCount n 13 31 16 1
    else
      let cells := s2.cellsFor n r.payload
      let u' := { u with pkts := u.pkts ++ [{ seq := e, len := r.payload.length, cells := cells }],
                         marker := if r.marker then some e else u.marker }
      (s2.putRing n cells r.payload).modSctx n fun x => { x.insertUnit u' with used := x.used + size }

/-- A frame that ingest takes. (DEDUCED, log 58) (DESIGN CHOICE, log 114) -/
def execCameraPacket (f now : Nat) (frame : List Nat) (s : State) : Out :=
  portEvent f s fun s =>
    match s.cameraOf f frame with
    | .no => .refused .cannotOccur
    | .drop => .next (s.addF F.VIS_PKT_DROP_COUNT 1)
    | .packet src dport b =>
      if 200 ≤ beAt b 1 1 ∧ beAt b 1 1 ≤ 204 then .next (s.passToHost f frame)
      else
        let r := rtpOf b
        match s.matchCtx src dport r.ssrc with
        | none => .next ((s.addF F.VIS_UNMATCHED_COUNT 1).passToHost f frame)
        | some n =>
          if r.pt ≠ s.cx n 0 38 32 then .next (s.addF F.VIS_PKT_DROP_COUNT 1)
          else .next ((s.takePacket n now r).completeUnits n now)

/-- A unit that a declared loss damages: it touches a lost number, unless the number follows its marker packet. -/
def AccessUnit.damaged (u : AccessUnit) (lost : List Nat) : Bool :=
  decide (u.stage = 0) && lost.any fun m =>
    decide ((u.lo < m ∧ m < u.hi) ∨ m + 1 = u.lo) || (decide (m = u.hi + 1) && u.marker != some u.hi)

/-- The numbers missing for REORDER_US are declared lost. (DEDUCED, log 58) -/
def execPacketLossDeclared (n now : Nat) (s : State) : Out :=
  if s.phase ≠ .up then .refused .cannotOccur
  else if 4096 ≤ n then .refused .noSuchUnit
  else
    let wait := 1000 * s.cx n 6 63 48
    let gone := ((s.sctx n).missing.filter fun m => decide (m.2 + wait ≤ now)).map (·.1)
    if s.cSTATE n ≠ 1 ∨ gone = [] then .refused .cannotOccur
    else
      let s1 := (s.modSctx n fun x => { x with missing := x.missing.filter (fun m => decide (m.1 ∉ gone)), lost := x.lost ++ gone }).cxCount n 13 47 32 gone.length
      let s2 := ((s1.sctx n).units.filter fun u => AccessUnit.damaged u gone).foldl (fun t u => t.discardUnit n u u.hi (2 ^ flLost)) s1
      .next (s2.completeUnits n now)

/-- The first complete unit whose JITTER_US has passed is released. (DEDUCED, log 58) -/
def execAccessUnitRelease (n now : Nat) (s : State) : Out :=
  if s.phase ≠ .up then .refused .cannotOccur
  else if 4096 ≤ n then .refused .noSuchUnit
  else
    let wait := 1000 * s.cx n 6 47 32
    match (s.sctx n).units.find? fun u => decide (u.stage = 1 ∧ u.firstAt + wait ≤ now) with
    | none => .refused .cannotOccur
    | some u => .next (s.releaseUnit n u)

/-- A frame that no other destination takes (R357). -/
def execHostCoreFrame (f : Nat) (frame : List Nat) (s : State) : Out :=
  portEvent f s fun s =>
    if (s.harnessOf f frame).isSome ∨ isPtp frame ∨ s.cameraOf f frame ≠ .no then .refused .cannotOccur
    else .next (s.passToHost f frame)

end Sys2Proof.Machine
end

