-- ==== Sys2Proof/Machine/Codec.lean ====
section
/-!
DEFINITION. The decoders, the encoders and the JPEG encoder (R308 to R314). What a stream decodes to, and
the bytes that an encoder forms, are those of the standards the spec names: they are operands.
-/
namespace Sys2Proof.Machine

def State.setDec (s : State) (d : Nat) (x : Option Decode) : State :=
  { s with vis := { s.vis with decs := tset dec0 s.vis.decs d x } }

/-- The decoder reads or discards a released unit: its space in the ring returns. -/
def State.takeUnit (s : State) (n : Nat) (u : AccessUnit) : State :=
  let s1 := s.modSctx n fun x => { x with units := x.units.filter fun v => v.ts ≠ u.ts, used := x.used - u.bytes, needPs := false }
  { s1 with vis := { s1.vis with released := s1.vis.released.filter fun e => e ≠ (n, u.ts) } }

/-- A released unit is discarded at its decode. -/
def State.refuseUnit (s : State) (n : Nat) (u : AccessUnit) (flags : Nat) : State :=
  (s.modSctx n fun x => { x with drops := u.hi :: x.drops }).dropRecord
    { ctx := n, num := u.num, rtpTs := u.ts, time := u.time, flags := flags } false true

/-- The decoders support the unit in its codec (Table VF-7), and its frame is no larger than they take. -/
def unitSupported (codec : Nat) (i : UnitInfo) : Bool :=
  !i.excluded && decide (i.w ≤ 8192 ∧ i.h ≤ 8192) && (match codec with
    | 0 => decide (i.profile ∈ [CodingProfile.constrainedBaseline, .baseline, .main, .high] ∧ i.level ≤ 52)
    | 1 => decide (i.profile ∈ [CodingProfile.main, .main10] ∧ i.level ≤ (if i.highTier then 51 else 61) ∧ (60 < i.level → i.rate ≤ 800))
    | _ => decide (i.profile = .main ∧ i.level ≤ 60))

/-- Decode begins on a unit that its context lets through; `seen` is what the decoder has read of it. -/
def State.beginUnit (s : State) (d n : Nat) (u : AccessUnit) (i : UnitInfo) (seen : Decode) : State :=
  let x := s.sctx n
  if unitSupported (s.cx n 0 54 53) i = false ∨ s.cFBSIZE n < frameBytes i.w i.h (s.cP010 n) then s.refuseUnit n u (2 ^ flUnsupported)
  else match s.fbNext n with
  | none => s.refuseUnit n u (2 ^ flNoFb)
  | some b =>
    let conceal := !i.rap && x.drops.any fun q => decide (q < u.lo)
    let f : VFrame := { ctx := n, num := u.num, time := u.time, rtpTs := u.ts, fb := b, width := i.w, height := i.h,
                        flags := if conceal then 2 ^ flConcealed else 0 }
    let s1 := (s.fbTake n b).modSctx n fun x =>
      if i.rap then { x with noRef := false, drops := x.drops.filter fun q => u.lo < q } else x
    { s1 with vis := { s1.vis with frames := s1.vis.frames ++ [f] } }.setDec d (some { seen with conceal := conceal })

/-- A free decoder takes the first unit released for a context that names it. -/
def execDecodeStart (d : Nat) (i : UnitInfo) (s : State) : Out :=
  if s.phase ≠ .up then .refused .cannotOccur
  else if 16 ≤ d ∨ s.decPresent d = false then .refused .noSuchUnit
  else if (s.decAt d).isSome ∨ s.grp (d / 4) ≠ 2 ∨ (s.fence 3 (d / 4)).closed then .refused .cannotOccur
  else match s.vis.released.find? fun e => s.cDEC e.1 == d with
  | none => .refused .cannotOccur
  | some (n, ts) => match (s.sctx n).units.find? fun u => u.ts == ts with
    | none => .refused .cannotOccur
    | some u =>
      let x := s.sctx n
      let s1 := s.takeUnit n u
      let seen : Decode := { ctx := n, num := u.num, params := if x.needPs then s.ldBytes (s.cAUX n) (s.cx n 9 31 16) else [],
                             stream := s.unitStream n u }
      if x.decLost ∧ i.rap = false then .next (s1.refuseUnit n u (2 ^ flDecLost))
      else if x.noRef ∧ i.rap = false then .next (s1.refuseUnit n u 0)
      else .next ((s1.modSctx n fun x => { x with decLost := false }).beginUnit d n u i seen)

/-- A decoded sample in the buffer's bits: 10 bits into NV12 are narrowed by rnd_2; what 8 bits become in P010 the
spec does not say. -/
def bufSample (ten p010 : Bool) (v free : Nat) : Nat :=
  if ten = p010 then v else if ten then min 255 (rndk 2 (v : Int)).toNat else free % 1024

/-- Block `b` covers a luma pixel. -/
def blockHit (b : Nat × Nat × Nat × Nat) (x y : Nat) : Bool := decide (b.1 ≤ x ∧ x < b.1 + b.2.2.1 ∧ b.2.1 ≤ y ∧ y < b.2.1 + b.2.2.2)

/-- The picture in the buffer of the latest frame decoded or concealed. -/
def State.latestPic (s : State) (n : Nat) : Option Pic :=
  (s.sctx n).latest.map fun b =>
    let size := tget size0 (s.sctx n).sizes b
    { base := s.fbAddr n b, w := size.1, h := size.2, p010 := s.cP010 n }

/-- The co-located sample of that picture: of luma, or of chroma `k` at half size (R309). -/
def State.colocated (s : State) (c : Pic) (k x y : Nat) : Nat :=
  match k with
  | 0 => s.picLuma c (min x (c.w - 1)) (min y (c.h - 1))
  | _ => s.picChroma c (k - 1) (min x (c.w / 2 - 1)) (min y (c.h / 2 - 1))

/-- A sample of plane `k` that the decoder writes: in a block of a concealed frame that cannot be decoded, the co-located one
of the latest frame. -/
def State.decoded (s : State) (n : Nat) (conceal : Bool) (p : Picture) (k x y v free : Nat) : Nat :=
  let m := if k = 0 then 1 else 2
  let ten := s.cP010 n
  if conceal && p.bad.any fun b => blockHit b (m * x) (m * y) then
    match s.latestPic n with
    | some c => s.colocated c k x y
    | none => free % (if ten then 1024 else 256)
  else bufSample p.ten ten v free

/-- A decoder finishes: the picture is in its buffer. (DEDUCED, log 54) (DESIGN CHOICE, log 57) -/
def execDecodeComplete (d : Nat) (p : Picture) (s : State) : Out :=
  if s.phase ≠ .up then .refused .cannotOccur
  else if 16 ≤ d ∨ s.decPresent d = false then .refused .noSuchUnit
  else match s.decAt d with
  | none => .refused .cannotOccur
  | some x => match s.frameOf x.ctx x.num with
    | none => .next (s.setDec d none)
    | some f =>
      let n := x.ctx
      let area := f.width * f.height
      let put (k : Nat) (rows : List (List Nat)) : Img := fun i j =>
        s.decoded n x.conceal p k i j ((rows.getD j []).getD i 0) (Config.freeNat (s.fresh + k * area + j * f.width + i))
      let chroma (k : Nat) : Img := if k = 1 then put 1 p.cb else put 2 p.cr
      let s1 := ((s.setDec d none).modSctx n fun y => { y with refs := p.refs, latest := some f.fb }).putFrame f.width f.height (s.cP010 n)
        (s.fbAddr n f.fb) (put 0 p.luma) chroma
      let s2 := { s1 with fresh := s1.fresh + 3 * area }
      .next ((if x.conceal then s2.cxCount n 12 15 0 1 else s2).frameComplete f)

/-- Close the fence of a decoder group: units in decode are lost with it, and the contexts that name its decoders
wait for a random-access point (R311). -/
def State.closeGroup (s : State) (g cause : Nat) : State :=
  if 4 ≤ g ∨ (s.fence 3 g).closed then s
  else
    let s1 := (List.range 4).foldl (fun t i => match t.decAt (4 * g + i) with
      | none => t
      | some x =>
        let f := (t.frameOf x.ctx x.num).getD {}
        let t1 := { t with vis := { t.vis with frames := t.vis.frames.filter fun y => ¬ (y.ctx = x.ctx ∧ y.num = x.num) } }
        ((t1.setDec (4 * g + i) none).modSctx x.ctx fun y => { y with held := y.held.filter (· ≠ f.fb) }).dropRecord
          { ctx := x.ctx, num := x.num, time := f.time, rtpTs := f.rtpTs, width := f.width, height := f.height, flags := 2 ^ flDecLost }
          true true) s
    let s2 := (s1.listedCtxs.filter fun n => s1.cSTATE n != 0 && s1.cNET n && s1.cDEC n / 4 == g).foldl
      (fun t n => t.modSctx n fun x => { x with decLost := true }) s1
    s2.shut 3 g cause {}

/-- A decoder has not finished a unit within 1 ms plus four times its decode time (R467). -/
def execDecoderTimeout (d : Nat) (s : State) : Out :=
  if s.phase ≠ .up then .refused .cannotOccur
  else if 16 ≤ d ∨ s.decPresent d = false then .refused .noSuchUnit
  else if s.decAt d = none then .refused .cannotOccur
  else .next (s.closeGroup (d / 4) causeFailure)

/-! ### Encoders (R312, R313) -/

def enc0 : Nat → Option EncJob := fun _ => none
def State.encPresent (s : State) (e : Nat) : Bool := decide (e < 2 ∧ s.getF F.GLB_CAP_VIDEO_ENC_PRESENT / 2 ^ e % 2 = 1)
def State.setEnc (s : State) (e : Nat) (q : Option EncJob) : State :=
  { s with vis := { s.vis with encs := tset enc0 s.vis.encs e q } }

def execEncodeStart (e : Nat) (s : State) : Out :=
  if s.phase ≠ .up then .refused .cannotOccur
  else if s.encPresent e = false then .refused .noSuchUnit
  else match tget enc0 s.vis.encs e, tget encq0 s.vis.encQ e with
    | none, q :: l => .next ({ s with vis := { s.vis with encQ := tset encq0 s.vis.encQ e l } }.setEnc e (some q))
    | _, _ => .refused .cannotOccur

/-- Write a picture of `b` bytes into the context's encoder ring with its header, wrapping where it does not fit. -/
def State.putEncoded (s : State) (n num : Nat) (idr : Bool) (b : List Nat) : State :=
  let size := s.cEOSIZE n
  let pos := (s.sctx n).encPos
  let body := b ++ List.replicate ((16 - b.length % 16) % 16) 0
  let wraps := decide (size < pos + 16 + body.length)
  let v (i : Nat) : Nat := Config.freeNat (s.fresh + i)
  let mark := leBytes 4 (v 0) ++ leBytes 4 0xFFFFFFFF ++ [v 1 % 256] ++ List.replicate 7 0
  let s1 := if wraps ∧ pos + 16 ≤ size then { s.stBytes (s.cEO n + pos) mark with fresh := s.fresh + 2 } else s
  let at' := if wraps then 0 else pos
  let hdr := leBytes 4 num ++ leBytes 4 b.length ++ [if idr then 1 else 0] ++ List.replicate 7 0
  let s2 := s1.stBytes (s.cEO n + at') ((hdr ++ body).take (size - at'))
  s2.modSctx n fun x => { x with encPos := min size (at' + 16 + body.length), encCount := x.encCount + 1 }

/-- The types of the NAL units of Annex B bytes, each behind its start code. -/
def nalTypes : List Nat → List Nat
  | 0 :: 0 :: 1 :: h :: l => h / 2 % 64 :: nalTypes l
  | _ :: l => nalTypes l
  | [] => []

/-- The form that R312 asks of a coded picture: an IDR behind its VPS, SPS and PPS, or one slice of another picture; what is
neither (delimiters and messages) may stand beside them. -/
def codedOk (idr : Bool) (b : List Nat) : Bool :=
  match (nalTypes b).filter fun t => t ∉ [35, 39, 40] with
  | [32, 33, 34, t] => idr && decide (t = 19 ∨ t = 20)
  | [t] => !idr && decide (t < 16)
  | _ => false

/-- The next picture of the context is an IDR: an intra picture opens every GOP frames. -/
def State.idrNext (s : State) (n : Nat) : Bool := decide ((s.sctx n).encCount % s.cx n 15 37 26 = 0)

/-- The encoder has formed the Annex B bytes of its picture. (DESIGN CHOICE, log 57) (DEDUCED, log 59) -/
def execEncodeComplete (e : Nat) (b : List Nat) (s : State) : Out :=
  if s.phase ≠ .up then .refused .cannotOccur
  else if s.encPresent e = false then .refused .noSuchUnit
  else match tget enc0 s.vis.encs e with
    | none => .refused .cannotOccur
    | some q =>
      if codedOk (s.idrNext q.ctx) b = false then .refused .cannotOccur
      else .next ((s.setEnc e none).putEncoded q.ctx q.num (s.idrNext q.ctx) b)

/-! ### JPEG (R314) -/

def State.jpegPresent (s : State) : Bool := s.flag F.GLB_CAP_VIDEO_JPEG_PRESENT

/-- A write of the high half queues the request. (DEDUCED, log 59) -/
def execJpegSubmit (port : Port) (w : W32) (s : State) : Out :=
  hostWrite port s fun s =>
    if 64 ≤ s.vis.jpegQ.length then s.raise F.VIS_STATUS_CMD_REJECT
    else
      let a := newF w F.VIS_JPEG_SUBMIT_HI_ADDR * 2 ^ 32 + (s.rd 0x700014).toNat / 32 * 32
      let ws := (List.range 4).map fun i => BitVec.ofNat 64 (s.ldN (a + 8 * i) 8)
      let w0 := ws.getD 0 0#64
      let j : JpegJob := { addr := a, words := ws, free := s.fbFree (bits w0 63 52) (bits w0 51 44) }
      { s with vis := { s.vis with jpegQ := s.vis.jpegQ ++ [j] } }

/-- The JPEG engine takes the job at the head of its queue (R314). (DEDUCED, log 59) -/
def execJpegJobStart (s : State) : Out :=
  if s.phase ≠ .up then .refused .cannotOccur
  else if s.jpegPresent = false then .refused .noSuchUnit
  else match s.vis.jpeg, s.vis.jpegQ with
    | none, j :: l => .next { s with vis := { s.vis with jpeg := some j, jpegQ := l } }
    | _, _ => .refused .cannotOccur

/-- The crop of a request lies within a frame; CW = 0 takes the whole of it. -/
def JpegJob.cropOk (j : JpegJob) (fw fh : Nat) : Bool :=
  let w := j.words.getD 1 0#64
  decide (bits w 31 16 = 0 ∨ (bits w 63 48 + bits w 31 16 ≤ fw ∧ 0 < bits w 15 0 ∧ bits w 47 32 + bits w 15 0 ≤ fh))

/-- The reason of a failed job whose encoding takes `len` bytes. -/
def State.jpegError (s : State) (j : JpegJob) (len : Nat) : Option Nat :=
  let w (i : Nat) : W64 := j.words.getD i 0#64
  let q := bits (w 0) 43 37
  let n := bits (w 0) 63 52
  let size := tget size0 (s.sctx n).sizes (bits (w 0) 51 44)
  if j.free then some rPermission
  else if q = 0 ∨ 100 < q ∨ s.cNFB n ≤ bits (w 0) 51 44 ∨ j.cropOk size.1 size.2 = false ∨ clearOf (w 0) (maskOf 36 0) = false ∨ clearOf (w 2) (maskOf 63 35) = false ∨ bits (w 2) 2 0 ≠ 0 then
    some rIllegalShape
  else if bits (w 3) 63 32 < len then some rLengthBounds
  else none

/-- The job ends; `b` is the JPEG file of its crop. (DESIGN CHOICE, log 57) -/
def execJpegJobComplete (b : List Nat) (s : State) : Out :=
  if s.phase ≠ .up then .refused .cannotOccur
  else if s.jpegPresent = false then .refused .noSuchUnit
  else match s.vis.jpeg with
    | none => .refused .cannotOccur
    | some j =>
      let out := bits (j.words.getD 2 0#64) 34 0
      let status (t : State) (err : Bool) (len r : Nat) : State :=
        let v := 2 ^ 31 + (if err then 2 ^ 30 else 0) + len % 2 ^ 22 * 2 ^ 8 + r
        { (t.stN (j.addr + 24) 4 v).raise F.VIS_STATUS_JPEG_DONE with vis := { t.vis with jpeg := none } }
      match s.jpegError j b.length with
      | none => .next (status (s.stBytes out b) false b.length 0)
      | some r =>
        if r = rLengthBounds then
          let t := s.scramble out (bits (j.words.getD 3 0#64) 63 32)
          .next (status t.used1 true (t.free % 2 ^ 22) r)
        else .next (status s true 0 r)

end Sys2Proof.Machine
end

