-- ==== Sys2Proof/Machine/Pace.lean ====
section
/-!
DEFINITION. The PACE block between tick edges (R34, R35, R48 to R58): register writes, PTP, the PACE_IN pin and
the timers. Times are device times in ns. The tick edge itself is Machine/TickEdge.lean.
-/
namespace Sys2Proof.Machine

def State.setPace (s : State) (f : Pace → Pace) : State := { s with pace := f s.pace }

def State.paceReject (s : State) : State := s.raise F.PACE_STATUS_WRITE_REJECT

def ptp0 : Nat → PtpPort := fun _ => {}
def State.ptp (s : State) (f : Nat) : PtpPort := tget ptp0 s.pace.ports f
def State.portPresent (s : State) (f : Nat) : Bool := decide (f < 2 ∧ s.getF (F.FAB_PORT_STATE f) ≠ 0)

/-- The active port (R49): among the LOCKED ones that PTP_PORT allows, port 0 first. Where PTP_PORT names one port alone, the
loss of that port is the loss that R53 speaks of, whatever the other's instance does. (DEDUCED, log 113) -/
def State.activePtp (s : State) : Option Nat :=
  let allowed := match s.getF F.PACE_CTRL_PTP_PORT with
    | 1 => [0]
    | 2 => [1]
    | _ => [0, 1]
  allowed.find? fun f => s.portPresent f && (s.ptp f).locked

/-- T0 in ns (R36). -/
def State.origin (s : State) : Int :=
  signedOf 48 (s.getF F.PACE_ORIGIN_SEC_HI_SEC * 2 ^ 32 + s.getF F.PACE_ORIGIN_SEC_LO_SEC) * 1000000000 + s.getF F.PACE_ORIGIN_NS_NS

/-- The number of the edge at a device time, rounded to the nearest integer (R36), an exact tie upwards. (DESIGN CHOICE, log 105) -/
def State.edgeNumber (s : State) (now : Nat) : Int :=
  let tp : Int := 1000 * s.pace.tp
  (2 * ((now : Int) - s.origin) + tp) / (2 * tp)

/-- SYNC_STATE of Table PT-5. -/
def State.syncState (s : State) : Nat :=
  if s.pace.waiting = false ∧ s.pace.ticking = false then 0
  else match s.getF F.PACE_CTRL_SOURCE with
  | 0 => 1
  | 1 =>
    if s.pace.stepHold then 4
    else if s.activePtp.isSome then 3
    else if s.pace.waiting then 2 else 4
  | _ => if s.pace.accepted = none then 2 else if 3 ≤ s.pace.misses then 4 else 3

/-- Bring PACE_STATUS up to date. -/
def State.paceShow (s : State) : State :=
  let a := s.activePtp
  let near : Bool := match a with
    | some f => decide ((s.ptp f).offset.natAbs ≤ 250)
    | none => false
  let code := match a with
    | some f => f + 1
    | none => 0
  ((s.setF F.PACE_STATUS_SYNC_STATE s.syncState).setF F.PACE_STATUS_ACTIVE_PORT code).setF F.PACE_STATUS_ALIGNED (if near then 1 else 0)

/-- PACE_OFFSET: own edge minus reference, saturating. -/
def State.setOffset (s : State) (x : Int) : State := s.setF F.PACE_OFFSET_OFFSET (intCode 32 (clampInt 32 x).1)

/-! ### Register writes (R34, R35, R53, R56 to R58) -/

/-- Writes that would change a field locked while ENABLE is 1, or a stop is pending, are ignored (R523). -/
def State.paceLocked (s : State) : Bool := s.flag F.PACE_CTRL_ENABLE || s.pace.stopping

/-- The word that a write of PACE_CTRL leaves, ENABLE aside; `none` where it is ignored as a whole, as one is that
names a fabric port which the variant does not have (R9).
(DEDUCED, log 62) -/
def State.ctrlWord (s : State) (v : W32) : Option W32 :=
  let old := s.rd 0x10000
  let keep3 (lo : Nat) : Nat := if fieldOf v lo 2 = 3 then fieldOf old lo 2 else fieldOf v lo 2
  let w := [(8, 8, fieldOf v 8 8), (7, 1, fieldOf v 7 1), (6, 1, fieldOf v 6 1), (4, 2, keep3 4), (2, 2, keep3 2)].foldl
    (fun (t : W32) (x : Nat × Nat × Nat) => withField t x.1 x.2.1 x.2.2) old
  let same (lo n : Nat) : Bool := fieldOf w lo n == fieldOf old lo n
  if 128 ≤ fieldOf v 8 8 then none
  else if fieldOf v 4 2 = 2 ∧ s.getF F.GLB_CAP_IO_FAB_PORT_PRESENT / 2 % 2 = 0 then none
  else if s.paceLocked ∧ ¬ (same 8 8 && same 6 1 && same 4 2 && same 2 2) then none
  else if newF v F.PACE_CTRL_ENABLE = 0 ∧ s.flag F.PACE_CTRL_ENABLE ∧ s.inJob then none
  else some w

/-- ENABLE goes to 1: start by the source's rule, or cancel a pending stop (R56, R57). -/
def State.paceStart (s : State) (now : Nat) : State :=
  let s1 := s.setF F.PACE_CTRL_ENABLE 1
  if s.pace.stopping then s1.setPace fun p => { p with stopping := false }
  else if s.pace.ticking ∨ s.pace.waiting then s1
  else
    let tp := s.getF F.PACE_PERIOD_TP_US
    let locked := s1.getF F.PACE_CTRL_SOURCE = 1 ∧ s1.activePtp.isSome
    (s1.setPace fun p => { p with waiting := true, tp := tp, edge := now, slew := 0, stepHold := false, misses := 0,
                                  accepted := none, ready := if locked then some now else none }).paceShow

/-- ENABLE goes to 0: before the first edge at once, later at the next edge. (DEDUCED, log 61) -/
def State.paceStop (s : State) : State :=
  let s1 := s.setF F.PACE_CTRL_ENABLE 0
  if s.pace.ticking then s1.setPace fun p => { p with stopping := true }
  else (s1.setPace fun p => { p with waiting := false, ready := none }).paceShow

/-- The lock state, or the ports that count, has changed: a PTP start that now finds its port LOCKED notes when; a start that loses it waits;
the last lock lost while ticking enters HOLDOVER, which keeps the last correction. -/
def State.ptpRelock (s : State) (now : Nat) : State :=
  let a := s.activePtp
  (s.setPace fun p => { p with
    ready := if p.waiting ∧ a.isSome then some (p.ready.getD now) else none,
    lostAt := if a.isSome then none else some (p.lostAt.getD now),
    held := p.held && !a.isSome,
    slew := if a = none ∧ s.getF F.PACE_CTRL_SOURCE = 1 then 0 else p.slew }).paceShow

/-- A write of PACE_CTRL. -/
def State.paceCtrlWrite (s : State) (now : Nat) (v : W32) : State :=
  match s.ctrlWord v with
  | none => s.paceReject
  | some w =>
    let s1 := (s.wr 0x10000 w).ptpRelock now
    if newF v F.PACE_CTRL_ENABLE = 1 then s1.paceStart now
    else if s.flag F.PACE_CTRL_ENABLE then s1.paceStop else s1

def paceUp (port : Port) (s : State) (f : State → State) : Out :=
  if s.phase ≠ .up then unreached s else .next (if portHost port then f s else s.denied port)

/-- A write of PACE_CTRL with ENABLE 1. -/
def execPaceEnable (port : Port) (now : Nat) (w : W32) (s : State) : Out :=
  paceUp port s fun s => s.paceCtrlWrite now (withField w 0 1 1)

/-- A write of PACE_CTRL with ENABLE 0. -/
def execPaceDisable (port : Port) (now : Nat) (w : W32) (s : State) : Out :=
  paceUp port s fun s => s.paceCtrlWrite now (withField w 0 1 0)

def execPacePeriodWrite (port : Port) (w : W32) (s : State) : Out :=
  paceUp port s fun s =>
    let v := newF w F.PACE_PERIOD_TP_US
    if inRng 1000 100000 v = false ∨ (s.inJob ∧ v ≠ s.getF F.PACE_PERIOD_TP_US) then s.paceReject
    else s.setF F.PACE_PERIOD_TP_US v

/-- Other PACE registers: `none` where the register has no rule of its own. -/
def State.paceWrite (s : State) (off : Nat) (v : W32) : Option State :=
  let change := s.rd off ≠ v
  if off = 0x10020 then
    some (if 999999999 < fieldOf v 0 30 ∨ (s.paceLocked ∧ fieldOf v 0 30 ≠ s.getF F.PACE_ORIGIN_NS_NS) then s.paceReject
      else s.portWrite off v)
  else if off = 0x10024 then some (if s.paceLocked ∧ change then s.paceReject else s.portWrite off v)
  else if off = 0x10028 then
    some (if s.paceLocked ∧ fieldOf v 0 16 ≠ s.getF F.PACE_ORIGIN_SEC_HI_SEC then s.paceReject else s.portWrite off v)
  else if off = 0x10034 then some (if inRng 100 60000 (fieldOf v 0 16) then s.portWrite off v else s.paceReject)
  else if 0x10100 ≤ off ∧ off < 0x10200 ∧ off % 16 < 8 then
    some (if s.flag (F.PACE_TMR_CTRL_ARM ((off - 0x10100) / 16)) ∧ change then s.paceReject else s.portWrite off v)
  else none

/-! ### PTP (R49 to R53) -/

/-- A Sync message of port `f` with a measured offset in ns, which PACE_OFFSET takes from the active port whatever SOURCE is.
(DEDUCED, log 61) -/
def execPtpSync (f now : Nat) (offset : Int) (s : State) : Out :=
  if s.phase ≠ .up then unreached s
  else if s.portPresent f = false then .refused .noSuchUnit
  else if s.getF (F.FAB_PORT_STATE f) ≠ 2 then .refused .cannotOccur
  else
    let q := s.ptp f
    let good := if offset.natAbs ≤ 250 then min 16 (q.good + 1) else 0
    let q1 : PtpPort := { good := good, locked := q.locked || decide (good = 16), offset := offset }
    let s1 := (s.setPace fun p => { p with ports := tset ptp0 p.ports f q1 }).ptpRelock now
    if s1.activePtp ≠ some f then .next s1
    else
      let s2 := s1.setOffset offset
      if s.pace.ticking = false ∨ s.getF F.PACE_CTRL_SOURCE ≠ 1 then .next s2
      else if offset.natAbs ≤ 20000 then .next (if s.pace.stepHold then s2 else s2.setPace fun p => { p with slew := offset })
      else .next (((s2.raise F.PACE_STATUS_STEP_REQUIRED).setPace fun p => { p with stepHold := true, slew := 0 }).paceShow)

/-- Port `f`'s PTP instance loses lock. -/
def State.ptpLose (s : State) (f now : Nat) : State :=
  let q : PtpPort := { good := 0, offset := (s.ptp f).offset }
  (s.setPace fun p => { p with ports := tset ptp0 p.ports f q }).ptpRelock now

def execPtpLockLost (f now : Nat) (s : State) : Out :=
  if s.phase ≠ .up then .refused .cannotOccur
  else if s.portPresent f = false then .refused .noSuchUnit
  else if (s.ptp f).locked = false then .refused .cannotOccur
  else .next (s.ptpLose f now)

/-- HOLD_MS has elapsed in HOLDOVER without relock. (DEDUCED, log 61) -/
def execPtpLost (now : Nat) (s : State) : Out :=
  if s.phase ≠ .up then .refused .cannotOccur
  else match s.pace.lostAt with
  | none => .refused .cannotOccur
  | some t =>
    if s.getF F.PACE_CTRL_SOURCE ≠ 1 ∨ s.pace.ticking = false ∨ s.activePtp.isSome ∨ s.pace.held ∨ now < t + 1000000 * s.getF F.PACE_HOLDOVER_HOLD_MS then
      .refused .cannotOccur
    else .next (((s.setPace fun p => { p with held := true }).raise F.PACE_STATUS_PTP_LOST).latch .ptpLost)

/-! ### PACE_IN (R54, R56) -/

/-- An edge is missing or rejected: the third in a row enters HOLDOVER. -/
def State.paceMiss (s : State) : State :=
  let n := s.pace.misses + 1
  let s1 := s.setPace fun p => { p with misses := n, slew := if n = 3 then 0 else p.slew }
  (if n = 3 then s1.raise F.PACE_STATUS_PACE_IN_LOST else s1).paceShow

/-- The pin follows an edge: the device takes PACE_IN edges. -/
def State.paceInOn (s : State) : Bool := decide (s.getF F.PACE_CTRL_SOURCE = 2) && (s.pace.waiting || s.pace.ticking)

/-- A rising edge of PACE_IN, seen at `now`; while ticking it lies `diff` ns after the device's own edge. PACE_OFFSET shows
the last accepted one. (DESIGN CHOICE, log 105) -/
def execPaceInEdge (now : Nat) (diff : Int) (s : State) : Out :=
  if s.phase ≠ .up then unreached s
  else if s.paceInOn = false then .refused .cannotOccur
  else
    let delay : Nat := s.getF F.PACE_IN_DELAY_DELAY_NS
    if s.pace.ticking = false then
      if s.pace.accepted = none then .next ((s.setPace fun p => { p with accepted := some (now - delay) }).paceShow)
      else .refused .cannotOccur
    else
      let x : Int := (delay : Int) - diff
      if x.natAbs ≤ 2000 then .next (((s.setOffset x).setPace fun p => { p with misses := 0, slew := x }).paceShow)
      else .next s.paceMiss

def execPaceInEdgeMissing (s : State) : Out :=
  if s.phase ≠ .up then .refused .cannotOccur
  else if s.paceInOn = false ∨ s.pace.ticking = false then .refused .cannotOccur
  else .next s.paceMiss

/-! ### Timers (R58) -/

def execPaceTimerExpire (n now : Nat) (s : State) : Out :=
  if s.phase ≠ .up then .refused .cannotOccur
  else if 16 ≤ n then .refused .noSuchUnit
  else if s.getF (F.PACE_TMR_CTRL_ARM n) = 0 ∨
      now < s.getF (F.PACE_TMR_DL_HI_DL n) * 2 ^ 32 + s.getF (F.PACE_TMR_DL_LO_DL n) then .refused .cannotOccur
  else .next ((s.setF (F.PACE_TMR_CTRL_ARM n) 0).latch (.timer n))

end Sys2Proof.Machine
end

