-- ==== Sys2Proof/Machine/Harness.lean ====
section
/-!
DEFINITION. Harness Link: messages, flows, credits and retransmission (R360 to R366).
-/
namespace Sys2Proof.Machine

/-! ### Message bytes (R360) -/

/-- One byte of CRC-32C (reflected, polynomial 0x1EDC6F41). -/
def crcBits : Nat → Nat → Nat
  | 0, c => c
  | n + 1, c => crcBits n (if c % 2 = 1 then Nat.xor (c / 2) 0x82F63B78 else c / 2)

def crc32c (b : List Nat) : Nat :=
  Nat.xor (b.foldl (fun c x => crcBits 8 (Nat.xor c (x % 256))) 0xFFFFFFFF) 0xFFFFFFFF

/-- A number in network order. (DEDUCED, log 71) -/
def beBytes (n v : Nat) : List Nat := (leBytes n v).reverse

/-! ### TYPE (Table HF-3) -/

def tyAck : Nat := 0
def tyData : Nat := 1
def tyBarrier : Nat := 2
def tyFreq : Nat := 3
def tyFann : Nat := 4
def tyMemb : Nat := 5
def tyJfault : Nat := 6

/-! ### The device in its job -/

def State.fid (s : State) : Nat := s.getF F.FAB_ID_ID
def State.setFab (s : State) (f : Fab → Fab) : State := { s with fab := f s.fab }
def State.jobState (s : State) : Nat := s.getF F.FAB_JOB_STATE_STATE
def stIdle : Nat := 0
def stJoining : Nat := 1
def stFormed : Nat := 2
def stFaulted : Nat := 3

def State.fabMembers (s : State) : Nat := s.getF (F.FAB_JOB_MEMBERS_MEMBERS 0) + s.getF (F.FAB_JOB_MEMBERS_MEMBERS 1) * 2 ^ 32
def bitsOf (m : Nat) : List Nat := (List.range 64).filter fun i => decide (m / 2 ^ i % 2 = 1)
def bitmapOf (l : List Nat) : Nat := (List.range 64).foldl (fun m i => if i ∈ l then m + 2 ^ i else m) 0
/-- Members in force: of a FORMED job the live ones. -/
def State.jobMembers (s : State) : List Nat := bitsOf (if s.jobState = stFormed then s.fab.live else s.fabMembers)
def State.others (s : State) : List Nat := s.jobMembers.filter (· ≠ s.fid)
/-- The leader (R371). -/
def State.fabLeader (s : State) : Nat := s.jobMembers.headD 0

/-! ### Flows (R362 to R364) -/

def flow0 : Nat → Flow := fun _ => {}
def State.flow (s : State) (p : Nat) : Flow := tget flow0 s.fab.flows p
def State.modFlow (s : State) (p : Nat) (f : Flow → Flow) : State :=
  s.setFab fun x => { x with flows := tmod flow0 x.flows p f }

/-- Sequence number `a` comes before `b`, modulo 2^32. -/
def seqBefore (a b : Nat) : Bool := decide (0 < cdiff b a ∧ cdiff b a < 2 ^ 31)

def State.upPorts (s : State) : List Nat := [0, 1].filter fun f => s.getF (F.FAB_PORT_STATE f) == 2

/-- The plane of a transmission to a peer: not an avoided one while another is up; a retransmission takes the plane
that the previous attempt did not use; else the one preferred, or either (R362, R364, R366).
(DESIGN CHOICE, log 68) -/
def State.planeFor (s : State) (p : Nat) (prev pref : Option Nat) : Option Nat :=
  let good := s.upPorts.filter fun f => decide (f ∉ (s.flow p).avoid)
  let l := if good = [] then s.upPorts else good
  let l1 := if 2 ≤ l.length then l.filter (fun f => prev != some f) else l
  match l1.find? fun f => pref == some f with
  | some f => some f
  | none => if 2 ≤ l1.length then l1[s.free % l1.length]? else l1.head?

/-- MAC and IPv6 address of a member's port on a plane (Table HF-6, FAB_PEER_n). -/
def State.peerMac (s : State) (p f : Nat) : Nat := s.rd64 (0x601000 + 64 * p + 8 * f) % 2 ^ 48
def State.peerAddr (s : State) (p f : Nat) : Nat :=
  s.rd64 (0x601000 + 64 * p + 16 + 16 * f) * 2 ^ 64 + s.rd64 (0x601000 + 64 * p + 24 + 16 * f)

/-- The UDP checksum over pseudo-header, UDP header and data: 0x0000 is sent as 0xFFFF (R360). -/
def udpSum (src dst : Nat) (u : List Nat) : Nat :=
  let c := 65535 - fold16 (onesSum (beBytes 16 src ++ beBytes 16 dst) + u.length + 17 + onesSum u)
  if c = 0 then 65535 else c

/-- The UDP/IPv6 packet of a message. Flow label, hop limit, ECN and source port are free. (DESIGN CHOICE, log 68) -/
def State.udpFrame (s : State) (p f x : Nat) (b : List Nat) : List Nat :=
  let src := s.peerAddr s.fid f
  let dst := s.peerAddr p f
  let len := 8 + b.length
  let ports := beBytes 2 (x / 2 ^ 32 % 2 ^ 16) ++ beBytes 2 (s.getF F.FAB_ETYPE_UDPPORT) ++ beBytes 2 len
  beBytes 4 (6 * 2 ^ 28 + (s.getF F.FAB_QOS_DSCP * 4 + x / 2 ^ 20 % 4) * 2 ^ 20 + x % 2 ^ 20) ++ beBytes 2 len ++
    [17, x / 2 ^ 24 % 256] ++ beBytes 16 src ++ beBytes 16 dst ++ ports ++ beBytes 2 (udpSum src dst (ports ++ [0, 0] ++ b)) ++ b

/-- Bytes of a transmitted frame before the message: Ethernet with its tag, and IPv6 and UDP where they are used. -/
def State.headLen (s : State) : Nat := if s.getF F.FAB_CTRL_ENCAP = 0 then 66 else 18

/-- The Ethernet frame of a message: the peer's and the device's MAC of the plane, one IEEE 802.1Q tag with
FAB_QOS.PCP, and UDP/IPv6 or FAB_ETYPE.ETYPE by FAB_CTRL.ENCAP, without check sequence (R358, R360). What else the
tag holds and the padding of a short frame are free. (DESIGN CHOICE, log 68) -/
def State.harnessFrame (s : State) (p f : Nat) (b : List Nat) : List Nat :=
  let x := Config.freeNat (s.fresh + 1)
  let tag := s.getF F.FAB_QOS_PCP * 2 ^ 13 + x / 2 ^ 48 % 2 ^ 13
  let head := beBytes 6 (s.peerMac p f) ++ beBytes 6 (s.peerMac s.fid f) ++ [0x81, 0x00] ++ beBytes 2 tag
  let a := if s.getF F.FAB_CTRL_ENCAP = 0 then head ++ [0x86, 0xDD] ++ s.udpFrame p f x b
           else head ++ beBytes 2 (s.getF F.FAB_ETYPE_ETYPE) ++ b
  a ++ (List.range (60 - a.length)).map fun i => Config.freeNat (s.fresh + 2 + i) % 256

/-- The link of the port that carries the flow to a peer: in breakout one of 2 or 4, by a hash of its addresses (R354). -/
def State.linkOf (s : State) (p f : Nat) : Nat :=
  let h := if s.getF F.FAB_CTRL_ENCAP = 0 then Config.linkHash (s.peerAddr s.fid f) (s.peerAddr p f)
           else Config.linkHash (s.peerMac s.fid f) (s.peerMac p f)
  match s.getF (F.FAB_PORT_MODE f) with
  | 0 => 0
  | m => h % 2 ^ m

/-- The bytes of a message (Table HF-2): CREDIT and ACK are those of the moment of sending. Whether ACKREQ is set is
free. (DESIGN CHOICE, log 68) (DEDUCED, log 71) -/
def State.messageBytes (s : State) (p : Nat) (m : HMsg) (retx : Bool) (plane : Nat) : List Nat :=
  let x := s.flow p
  let ackreq := if m.typ = tyAck then 0 else s.free / 4 % 2
  let w0 := 2 ^ 60 + m.typ * 2 ^ 56 + (if retx then 2 ^ 55 else 0) + plane * 2 ^ 54 + ackreq * 2 ^ 53 + s.fid * 2 ^ 42 + p % 64 * 2 ^ 36 +
    s.getF F.FAB_JOB_ID_JOBID * 2 ^ 16 + m.payload.length
  let w1 := m.seq * 2 ^ 32 + x.rxNext
  let w2 := m.tick * 2 ^ 32 + x.owed % 65536 * 2 ^ 16
  let b := [w0, w1, w2, m.arg].flatMap (beBytes 8) ++ m.payload
  b ++ beBytes 4 (crc32c b)

/-- Put a message on the wire, where a plane is up; the plane it took. The credits it returns are returned. -/
def State.transmit (s : State) (p : Nat) (m : HMsg) (retx : Bool) (prev : Option Nat) : State × Option Nat :=
  match s.planeFor p prev m.pref with
  | none => (s, none)
  | some f =>
    let b := s.messageBytes p m retx f
    let a := s.harnessFrame p f b
    let s1 := ({ s with fresh := s.fresh + 8 }.modFlow p fun x => { x with owed := 0 }).setFab fun x =>
      { x with wire := x.wire ++ [(f, s.linkOf p f, a)] }
    (if retx then s1.addF F.FAB_RETX_COUNT 1 else s1, some f)

/-- Credits that the peer has granted and that are not in use. -/
def State.creditsLeft (s : State) (p : Nat) : Nat := s.getF F.FAB_CREDITS_PER_PEER - (s.flow p).spent

/-- Give a message its number and its credit, and send it. -/
def State.launch (s : State) (p : Nat) (m : HMsg) : State :=
  let x := s.flow p
  let m1 := { m with seq := x.txNext }
  let s1 := s.modFlow p fun x => { x with txNext := (x.txNext + 1) % 2 ^ 32, spent := x.spent + 1 }
  let (s2, f) := s1.transmit p m1 false none
  s2.modFlow p fun x => { x with unacked := x.unacked ++ [{ msg := m1, plane := f }] }

/-- A message may go: two credits are kept for control messages (R363). (DEDUCED, log 69) -/
def State.maySend (s : State) (p : Nat) (m : HMsg) : Bool := decide ((if m.typ = tyData then 2 else 0) < s.creditsLeft p)

/-- Send a sequenced message, or let it wait: DATA behind every message that waits, a control message behind other
control messages, since a credit kept for it lets it go at once. (DEDUCED, log 69) On a flow that is DOWN nothing is sent (R365). -/
def State.sendMsg (s : State) (p typ arg : Nat) (payload : List Nat) (pref : Option Nat := none) : State :=
  let m : HMsg := { typ := typ, tick := s.tick % 2 ^ 32, arg := arg, payload := payload, pref := pref }
  let x := s.flow p
  let behind := if typ = tyData then decide (x.waiting ≠ []) else x.waiting.any fun w => w.typ != tyData
  if x.down then s
  else if s.maySend p m && !behind then s.launch p m
  else s.modFlow p fun x => { x with waiting := x.waiting ++ [m] }

/-- The next waiting message, where it may go: messages that wait keep their order (R363). -/
def State.nextWaiting (s : State) (p : Nat) : Option HMsg := (s.flow p).waiting.head?.filter (s.maySend p)

/-- Send what waits, as far as the credits go. (DEDUCED, log 69) -/
def State.pump (s : State) (p : Nat) : Nat → State
  | 0 => s
  | n + 1 => match s.nextWaiting p with
    | none => s
    | some m => ((s.modFlow p fun x => { x with waiting := x.waiting.drop 1 }).launch p m).pump p n

/-- Send to several members. -/
def State.sendAll (s : State) (ps : List Nat) (typ arg : Nat) (payload : List Nat) : State :=
  ps.foldl (fun t p => t.sendMsg p typ arg payload) s

/-! ### Acknowledgement and retransmission (R364 to R366) -/

/-- Send an ACK: the numbers received beyond the next expected one are in its bitmap. (DEDUCED, log 69) -/
def State.ackOut (s : State) (p : Nat) : State :=
  let x := s.flow p
  let bm := bitmapOf ((List.range 64).filter fun i => x.held.any fun m => m.seq == (x.rxNext + 1 + i) % 2 ^ 32)
  let m : HMsg := { typ := tyAck, tick := s.tick % 2 ^ 32, payload := beBytes 8 bm }
  let (s1, _) := s.transmit p m false none
  s1.modFlow p fun x => { x with unseen := 0 }

/-- A flow goes DOWN: its messages are neither sent nor applied again (R365). (DEDUCED, log 69) -/
def State.flowDown (s : State) (p : Nat) : State :=
  let s1 := s.modFlow p fun x => { x with down := true, unacked := [], waiting := [], held := [], unseen := 0 }
  let f := F.FAB_JOB_UNREACH_MEMBERS (p / 32)
  (s1.setF f (((s1.rd f.off) ||| BitVec.ofNat 32 (2 ^ (p % 32))).toNat)).latch .fabReport

def replaceUnacked (u : Unacked) (l : List Unacked) : List Unacked := l.map fun v => if v.msg.seq = u.msg.seq then u else v

/-- Retransmit a message, unless its flow is DOWN; one retransmitted RETRY_MAX times takes its flow DOWN instead. -/
def State.retransmit (s : State) (p : Nat) (u : Unacked) (count : Bool) : State :=
  if (s.flow p).down then s
  else if count ∧ s.getF F.FAB_TIMERS_RETRY_MAX ≤ u.tries then s.flowDown p
  else
    let (s1, f) := s.transmit p u.msg true u.plane
    let v : Unacked := { msg := u.msg, tries := if count then u.tries + 1 else u.tries, plane := f.orElse fun _ => u.plane }
    s1.modFlow p fun x => { x with unacked := replaceUnacked v x.unacked }

/-- Take ACK, CREDIT and the bitmap of a received message: what is acknowledged leaves, and a message that the bitmap
shows missing before a later one is retransmitted at once. -/
def State.ackIn (s : State) (p ack credit bm : Nat) : State :=
  let x := s.flow p
  let got (q : Nat) : Bool := seqBefore q ack || (decide (cdiff q (ack + 1) < 64) && decide (bm / 2 ^ cdiff q (ack + 1) % 2 = 1))
  let (gone, left) := x.unacked.partition fun u => got u.msg.seq
  let clear := gone.foldl (fun (t : Tbl Nat) u => match u.plane with
    | some f => tset nat0 t f 0
    | none => t) x.timeouts
  let s1 := s.modFlow p fun x => { x with spent := x.spent - credit, unacked := left, timeouts := clear }
  let missing (u : Unacked) : Bool := (List.range 64).any fun i => decide (bm / 2 ^ i % 2 = 1) && seqBefore u.msg.seq ((ack + 1 + i) % 2 ^ 32)
  let s2 := (left.filter missing).foldl (fun t u => t.retransmit p u true) s1
  s2.pump p (s2.flow p).waiting.length

end Sys2Proof.Machine
end

