-- ==== Sys2Proof/Machine/Collective.lean ====
section
/-!
DEFINITION. Collective operations (R379 to R381) and the DATA messages that carry them.
-/
namespace Sys2Proof.Machine

/-! ### The operation (Table HF-4) -/

def coWord (w : List W64) (i : Nat) : W64 := w.getD i 0#64
def coOP (w : List W64) : Nat := bits (coWord w 0) 63 60
def coELEM (w : List W64) : Nat := bits (coWord w 0) 59 58
def coRED (w : List W64) : Nat := bits (coWord w 0) 57 56
def coROOT (w : List W64) : Nat := bits (coWord w 0) 55 50
def coOPID (w : List W64) : Nat := bits (coWord w 0) 47 40
def coNIN (w : List W64) : Nat := bits (coWord w 0) 39 32
def coCOUNT (w : List W64) : Nat := bits (coWord w 0) 31 0
def coSOBJ (w : List W64) : Nat := bits (coWord w 1) 63 48
def coSOFF (w : List W64) : Nat := bits (coWord w 1) 39 0
def coDOBJ (w : List W64) : Nat := bits (coWord w 2) 63 48
def coDOFF (w : List W64) : Nat := bits (coWord w 2) 39 0

/-- The partition of the job (R367). -/
def State.jobPart (s : State) : Nat := s.getF F.FAB_JOB_CFG_PART
def State.jobRing (s : State) : Nat := s.getF F.FAB_JOB_CFG_RING
def State.jobObj (s : State) (id : Nat) : Obj := s.obj s.jobPart id

/-- A HALO list entry: the peer, the source, the peer's destination, the length, and whether a reserved bit is set. -/
structure HaloEntry where
  peer : Nat
  len : Nat
  sobj : Nat
  soff : Nat
  dobj : Nat
  doff : Nat
  resv : Bool
deriving DecidableEq, Repr

def haloEntry (b : List Nat) : HaloEntry :=
  let w (i : Nat) : Nat := leNat ((b.drop (8 * i)).take 8)
  { peer := w 0 / 2 ^ 56 % 64, len := w 0 % 2 ^ 32, sobj := w 1 / 2 ^ 48, soff := w 1 % 2 ^ 40, dobj := w 2 / 2 ^ 48, doff := w 2 % 2 ^ 40,
    resv := decide (w 1 / 2 ^ 40 % 256 ≠ 0 ∨ w 2 / 2 ^ 40 % 256 ≠ 0) }

/-- The bytes of an object in the job's partition, where they can be read. -/
def State.jobRead (s : State) (id off len : Nat) : Acc := s.rdObj s.jobPart id off len false

/-- The entries of a HALO list, while the list can be read. -/
def State.haloList (s : State) (w : List W64) : List HaloEntry :=
  let n := coCOUNT w
  if (s.jobObj (coSOBJ w)).stage ≠ 2 ∨ (s.jobObj (coSOBJ w)).size < coSOFF w + 24 * n then []
  else match s.jobRead (coSOBJ w) (coSOFF w) (24 * n) with
  | .ok b _ => (List.range n).map fun i => haloEntry ((b.drop (24 * i)).take 24)
  | .bad _ _ _ => []

def elemBytes (w : List W64) : Nat := if coELEM w = 2 then 8 else 4

/-- The device reads the source named in word 1, and writes the destination in word 2. -/
def State.usesSrc (s : State) (w : List W64) : Bool := decide (coOP w = 2 ∨ coOP w = 3 ∨ (coOP w = 1 ∧ coROOT w = s.fid))
def usesDst (w : List W64) : Bool := decide (coOP w = 1 ∨ coOP w = 2)

/-- The reason that refuses an operation at the head of the queue (R380). -/
def State.collectiveCheck (s : State) (w : List W64) : Option Nat :=
  let op := coOP w
  let n := coCOUNT w
  let l := if op = 3 then s.haloList w else []
  let past (id off len : Nat) : Bool := decide ((s.jobObj id).stage = 2 ∧ (s.jobObj id).size < off + len)
  let gone (id : Nat) : Bool := decide ((s.jobObj id).stage ≠ 2)
  let srcLen := if op = 3 then 24 * n else n
  if op = 0 ∨ 5 ≤ op ∨ (op = 2 ∧ (coELEM w = 3 ∨ coRED w = 3)) ∨ clearOf (coWord w 0) (maskOf 49 48) = false ∨
      clearOf (coWord w 1) (maskOf 47 40) = false ∨ clearOf (coWord w 2) (maskOf 47 40) = false ∨
      (op = 1 ∧ coROOT w ∉ s.jobMembers) ∨ l.any (fun e => e.resv || decide (e.peer ∉ s.jobMembers)) then some rIllegalShape
  else if (s.usesSrc w && past (coSOBJ w) (coSOFF w) srcLen) || (usesDst w && past (coDOBJ w) (coDOFF w) n) ||
      l.any (fun e => past e.sobj e.soff e.len) || decide (op = 2 ∧ n % elemBytes w ≠ 0) then some rLengthBounds
  else if (s.usesSrc w && gone (coSOBJ w)) || (usesDst w && (gone (coDOBJ w) || (s.jobObj (coDOBJ w)).ro)) ||
      l.any (fun e => gone e.sobj) then some rPermission
  else none

/-! ### Its record -/

/-- A record on the report ring in the layout of Table HQ-7, FINAL 1. -/
def State.fabRecord (s : State) (outcome reason seq : Nat) (cookie : W64) : State :=
  let j : Job := { part := s.jobPart, ring := s.jobRing, seq := seq, cookie := cookie }
  s.writeRecord s.jobRing j outcome reason true false

/-- The operation at the head ends. -/
def State.endOp (s : State) (outcome reason : Nat) : State :=
  match s.fab.ops with
  | [] => s
  | w :: l => (s.fabRecord outcome reason s.fab.opCount (coWord w 3)).setFab fun x => { x with ops := l, running := none }

/-! ### Moving bytes -/

/-- The bytes cut into messages of 4,096. A region ends with a message shorter than that. -/
def chunked : Nat → Nat → List Nat → List (Nat × List Nat)
  | 0, _, _ => []
  | n + 1, off, b => if b = [] then [] else (off, b.take 4096) :: chunked n (off + 4096) (b.drop 4096)

def regionChunks (off : Nat) (b : List Nat) : List (Nat × List Nat) :=
  chunked (b.length / 4096 + 1) off b ++ (if b.length % 4096 = 0 then [(off + b.length, [])] else [])

def dataArg (obj opid off : Nat) : Nat := obj % 65536 * 2 ^ 48 + opid * 2 ^ 40 + off % 2 ^ 40

/-- Send chunks, each on the plane that `pref` gives for its place in the list. -/
def State.sendData (s : State) (p obj opid : Nat) (pref : Nat → Option Nat) (l : List (Nat × List Nat)) : State :=
  (numbered 0 l).foldl (fun t e => t.sendMsg p tyData (dataArg obj opid e.2.1) e.2.2 (pref e.1)) s

/-- The plane of message `i` of `total`: with two planes in use the first half of the data uses one and the rest the
other (R381). (DESIGN CHOICE, log 73) -/
def halfPlane (c : Collective) (total i : Nat) : Option Nat := if 2 ≤ c.planes then some (if 2 * i < total then 0 else 1) else none

def dataOPID (arg : Nat) : Nat := arg / 2 ^ 40 % 256

/-- DATA of an operation to one of its targets is not acknowledged yet, or its flow is DOWN. -/
def State.dataLeft (s : State) (c : Collective) : Bool :=
  c.targets.any fun p => decide (p ∈ s.jobMembers) && ((s.flow p).down ||
    (s.flow p).unacked.any (fun u => u.msg.typ == tyData && dataOPID u.msg.arg == coOPID c.words) ||
    (s.flow p).waiting.any fun m => m.typ == tyData && dataOPID m.arg == coOPID c.words)

/-- Write bytes at a destination of the job's partition; the reason where they cannot be written. Bytes beyond the
object are discarded. (DEDUCED, log 74) -/
def State.jobWrite (s : State) (obj off : Nat) (b : List Nat) : State × Option Nat :=
  let x := s.jobObj obj
  if x.stage ≠ 2 ∨ x.ro then (s, some rPermission)
  else if x.size < off + b.length then (s, none)
  else match s.wrObj s.jobPart obj off b false with
  | .ok _ t => (t, none)
  | .bad r _ t => (t, some r)

/-! ### ALLREDUCE -/

/-- One element: the partial result with the device's own. A sum of INT32 beyond its range is free. -/
def State.reduceElem (s : State) (w : List W64) (i a b : Nat) : Nat :=
  let fl (f : FFmt) : Nat := match coRED w with
    | 0 => addIn f a b
    | 1 => fenc f ((fdec f a).maxNum (fdec f b))
    | _ => fenc f ((fdec f a).minNum (fdec f b))
  match coELEM w with
  | 0 =>
    let x := signedOf 32 a
    let y := signedOf 32 b
    match coRED w with
    | 0 => if (clampInt 32 (x + y)).2 then Config.freeNat (s.fresh + i) % 2 ^ 32 else intCode 32 (x + y)
    | 1 => intCode 32 (max x y)
    | _ => intCode 32 (min x y)
  | 1 => fl fmtF32
  | _ => fl fmtF64

def State.reduceBytes (s : State) (w : List W64) (a b : List Nat) : List Nat :=
  let n := elemBytes w
  (List.range (a.length / n)).flatMap fun i =>
    leBytes n (s.reduceElem w i (leNat ((a.drop (n * i)).take n)) (leNat ((b.drop (n * i)).take n)))

/-- Segments of the elements from `at_` to `stop`: their number, and the place of the first among all segments. -/
def cutSegs (total stop : Nat) : Nat → Nat → Nat → List (Nat × Nat)
  | 0, _, _ => []
  | 1, at_, _ => [(at_, stop - at_)]
  | left + 1, at_, i =>
    let n := min (stop - at_) (Config.segCut total i)
    (at_, n) :: cutSegs total stop left (at_ + n) (i + 1)

/-- Start and length in bytes of every segment of an ALLREDUCE among `n` members: `n` for each plane in use, each plane
carrying its half of the elements. -/
def segsOf (c : Collective) (n : Nat) : List (Nat × Nat) :=
  let eb := elemBytes c.words
  let total := coCOUNT c.words / eb
  let half := (total + Config.segCut total (2 * n) % 2) / 2
  (if 2 ≤ c.planes then cutSegs total half n 0 0 ++ cutSegs total total n half n else cutSegs total total n 0 0).map fun g =>
    (g.1 * eb, g.2 * eb)

/-- The device's place among the members, in ascending FAB_ID order. -/
def State.ringPlace (s : State) : Nat := (s.jobMembers.filter fun p => decide (p < s.fid)).length
def State.ringNext (s : State) : Nat := s.jobMembers.getD ((s.ringPlace + 1) % s.jobMembers.length) 0

/-- The plane that a segment uses, where two are in use. -/
def segPlane (c : Collective) (n g : Nat) : Option Nat := if 2 ≤ c.planes then some (g / n) else none

/-- Send the segments that start at this member. -/
def State.ringStart (s : State) (c : Collective) : State :=
  let w := c.words
  let n := s.jobMembers.length
  (numbered 0 (segsOf c n)).foldl (fun t e =>
    let (g, off, len) := e
    if (g % n + 1) % n ≠ s.ringPlace ∨ len = 0 then t
    else match t.jobRead (coSOBJ w) (coSOFF w + off) len with
    | .bad _ _ u => u
    | .ok b u => u.sendData s.ringNext (coDOBJ w) (coOPID w) (fun _ => segPlane c n g) (chunked (len / 4096 + 1) (coDOFF w + off) b)) s

/-- A chunk of an ALLREDUCE arrives: on its way to member `j` the device adds its own part; after that it is final, is
written, and goes on until it has been all round. -/
def State.ringChunk (s : State) (c : Collective) (off : Nat) (b : List Nat) : State × Option Nat :=
  let w := c.words
  let n := s.jobMembers.length
  let rel := off - coDOFF w
  let me := s.ringPlace
  match (numbered 0 (segsOf c n)).find? fun e => decide (e.2.1 ≤ rel ∧ rel < e.2.1 + e.2.2) with
  | none => (s, none)
  | some (g, _) =>
    let j := g % n
    let first := decide ((rel, b.length) ∉ c.chunks)
    let reduce := decide (me ≠ (j + 1) % n) && first
    let final := !reduce || decide (me = j)
    let own : Acc := if reduce then s.jobRead (coSOBJ w) (coSOFF w + rel) b.length else .ok [] s
    match own with
    | .bad r _ t => (t, some r)
    | .ok o t =>
      let v := if reduce then t.reduceBytes w b o else b
      let t0 := { t with fresh := t.fresh + b.length }
      let c1 := { c with chunks := c.chunks ++ [(rel, b.length)], got := if final then c.got + b.length else c.got }
      let (t1, r) := if final then t0.jobWrite (coDOBJ w) off v else (t0, none)
      let t2 := t1.setFab fun x => { x with running := some c1 }
      let go := !final || decide ((me + 1) % n ≠ j)
      (if go then t2.sendData s.ringNext (coDOBJ w) (coOPID w) (fun _ => segPlane c n g) [(off, v)] else t2, r)

/-! ### Progress and completion -/

/-- Every member's KIND 1 BARRIER with the operation's OPID has been applied. -/
def State.barsIn (s : State) (c : Collective) : Bool := s.others.all fun p => decide ((coOPID c.words, p) ∈ s.fab.opBars)

/-- Complete the operation that runs, if all it waits for has happened. -/
def State.opProgress (s : State) : State :=
  match s.fab.running with
  | none => s
  | some c =>
    let w := c.words
    let done := match coOP w with
      | 1 => if coROOT w = s.fid then !s.dataLeft c else decide (coCOUNT w ≤ c.got)
      | 2 => decide (coCOUNT w ≤ c.got)
      | 3 => !s.dataLeft c && decide (coNIN w ≤ c.regions)
      | _ => s.barsIn c
    if done then
      (s.setFab fun x => { x with opBars := if coOP w = 4 then x.opBars.filter (fun e => e.1 != coOPID w) else x.opBars }).endOp oServed rOK
    else s

/-- The destination of a DATA message fails check 3 of R380. -/
def State.dataBad (s : State) (m : HMsg) : Bool :=
  let x := s.jobObj (m.arg / 2 ^ 48)
  decide (x.stage ≠ 2) || x.ro

/-- Apply a DATA message of the operation that runs; its slot is free afterwards. -/
def State.applyData (s : State) (p : Nat) (m : HMsg) (c : Collective) : State :=
  let obj := m.arg / 2 ^ 48
  let off := m.arg % 2 ^ 40
  let s0 := s.modFlow p fun x => { x with owed := x.owed + 1 }
  let (s1, bad) :=
    if coOP c.words = 2 then
      (if s0.dataBad m then (s0, some rPermission) else s0.ringChunk c off m.payload)
    else
      let (t, r) := s0.jobWrite obj off m.payload
      let c1 := { c with got := c.got + m.payload.length, regions := if m.payload.length < 4096 then c.regions + 1 else c.regions }
      (t.setFab fun x => { x with running := some c1 }, r)
  match bad with
  | some r => (s1.endOp oFaulted r).setFab fun x => { x with spoiled := x.spoiled ++ [coOPID c.words] }
  | none => s1.opProgress

/-- A DATA message in flow order: held in its slot until its operation begins. More DATA for a bad destination of an
operation that has ended over one is discarded. -/
def State.dataIn (s : State) (p : Nat) (m : HMsg) : State :=
  let hold := if decide (dataOPID m.arg ∈ s.fab.spoiled) && s.dataBad m then s.modFlow p fun x => { x with owed := x.owed + 1 }
              else s.setFab fun x => { x with parked := x.parked ++ [(p, m)] }
  match s.fab.running with
  | some c => if coOPID c.words = dataOPID m.arg then s.applyData p m c else hold
  | none => hold

/-- Apply what was held for the operation that has begun. -/
def State.unpark (s : State) (opid : Nat) : State :=
  let l := s.fab.parked.filter fun e => dataOPID e.2.arg == opid
  l.foldl (fun t e => t.dataIn e.1 e.2) (s.setFab fun x => { x with parked := x.parked.filter fun e => dataOPID e.2.arg != opid })

/-- A HALO begins: what its list names is sent, or written where the peer is the device itself. -/
def State.haloStart (s : State) (w : List W64) (c : Collective) : State × Option Nat :=
  let l := s.haloList w
  let msgs (e : HaloEntry) : Nat := if e.peer = s.fid then 0 else e.len / 4096 + 1
  let total := sumNat (l.map msgs)
  let (t, r, _) := l.foldl (fun (a : State × Option Nat × Nat) e =>
    match a.2.1 with
    | some _ => a
    | none => match a.1.jobRead e.sobj e.soff e.len with
      | .bad r _ t => (t, some r, a.2.2)
      | .ok b t =>
        if e.peer = s.fid then
          let (u, r) := t.jobWrite e.dobj e.doff b
          (u, r, a.2.2)
        else (t.sendData e.peer e.dobj (coOPID w) (fun i => halfPlane c total (a.2.2 + i)) (regionChunks e.doff b), none, a.2.2 + msgs e))
    (s, none, 0)
  (t, r)

/-- What an operation does when it begins; the reason where its source cannot be read. -/
def State.opStart (s : State) (c : Collective) : State × Option Nat :=
  let w := c.words
  match coOP w with
  | 1 =>
    if coROOT w ≠ s.fid then (s, none)
    else match s.jobRead (coSOBJ w) (coSOFF w) (coCOUNT w) with
    | .bad r _ t => (t, some r)
    | .ok b t =>
      let (t1, r) := t.jobWrite (coDOBJ w) (coDOFF w) b
      let l := numbered 0 (chunked (b.length / 4096 + 1) (coDOFF w) b)
      (l.foldl (fun t e => c.targets.foldl (fun u p => u.sendData p (coDOBJ w) (coOPID w) (fun _ => halfPlane c l.length e.1) [e.2]) t) t1, r)
  | 2 =>
    if s.jobMembers.length = 1 then
      match s.jobRead (coSOBJ w) (coSOFF w) (coCOUNT w) with
      | .bad r _ t => (t, some r)
      | .ok b t =>
        let (t1, r) := t.jobWrite (coDOBJ w) (coDOFF w) b
        (t1.setFab fun x => { x with running := some { c with got := coCOUNT w } }, r)
    else (s.ringStart c, none)
  | 3 => (match s.jobRead (coSOBJ w) (coSOFF w) (24 * coCOUNT w) with
    | .bad r _ t => (t, some r)
    | .ok _ t => t.haloStart w c)
  | _ => (s.sendAll c.targets tyBarrier (2 ^ 31 + coOPID w) [], none)

/-- The operation at the head of the queue begins: it is checked, and does its part. -/
def State.opBegin (s : State) (w : List W64) : State :=
  let s1 := s.setFab fun x => { x with opCount := x.opCount + 1, spoiled := x.spoiled.filter (· ≠ coOPID w) }
  match s1.collectiveCheck w with
  | some r => s1.endOp oRefused r
  | none =>
    let targets := if coOP w = 3 then s1.others.filter fun p => (s1.haloList w).any fun e => e.peer == p else s1.others
    let c : Collective := { words := w, targets := targets, planes := max 1 s.upPorts.length }
    if coOP w ≠ 4 ∧ coCOUNT w = 0 then s1.endOp oServed rOK
    else
      let (s2, r) := (s1.setFab fun x => { x with running := some c }).opStart c
      match r with
      | some r => s2.endOp oFaulted r
      | none => (s2.unpark (coOPID w)).opProgress

/-- The head of the queue is such an operation and has not begun. A refused OP is taken as a barrier. -/
def beginOp (op : Nat) (s : State) : Out :=
  if s.phase ≠ .up then .refused .cannotOccur
  else match s.fab.ops, s.fab.running with
  | w :: _, none =>
    let o := if coOP w = 0 ∨ 5 ≤ coOP w then 4 else coOP w
    if s.jobState = stFormed ∧ o = op then .next (s.opBegin w) else .refused .cannotOccur
  | _, _ => .refused .cannotOccur

def execBcast (s : State) : Out := beginOp 1 s
def execAllreduce (s : State) : Out := beginOp 2 s
def execHalo (s : State) : Out := beginOp 3 s
def execOperationBarrier (s : State) : Out := beginOp 4 s

/-- A write of FAB_COP_GO queues the operation in FAB_COP (R379). (DEDUCED, log 74) -/
def State.copGo (s : State) : State :=
  if 64 ≤ s.fab.ops.length ∨ s.jobState ≠ stFormed then s.raise F.FAB_STATUS_CMD_REJECT
  else
    let w := (List.range 4).map fun i => BitVec.ofNat 64 (s.rd64 (0x600200 + 8 * i))
    s.setFab fun x => { x with ops := x.ops ++ [w] }

end Sys2Proof.Machine
end

