-- ==== Sys2Proof/Machine/Fabric.lean ====
section
/-!
DEFINITION. Received Harness messages, ports and planes, jobs and their leader, the frequency agreement and the
tick barrier (R357 to R378, R382, R383). What a tick edge does stands here as operations that
Machine/TickEdge.lean calls.
-/
namespace Sys2Proof.Machine

/-! ### The job's digest and the time grid (R369, R371) -/

def State.fabDigest (s : State) : Nat :=
  crc32c (Config.digestBytes (s.getF F.FAB_JOB_ID_JOBID) s.fabMembers (s.getF F.PACE_PERIOD_TP_US) (s.getF F.PACE_ORIGIN_NS_NS)
    (s.getF F.PACE_ORIGIN_SEC_LO_SEC) (s.getF F.PACE_ORIGIN_SEC_HI_SEC) (s.getF F.FAB_JOB_CFG_BTO))

/-- The period becomes `tp` at the edge at `now`, which keeps its number `k`. -/
def State.setPeriod (s : State) (tp now k : Nat) : State :=
  let t0 : Int := (now : Int) - (k : Int) * (1000 * tp : Nat)
  let sec := intCode 48 (t0 / 1000000000)
  ((((s.setF F.PACE_PERIOD_TP_US tp).setF F.PACE_ORIGIN_NS_NS (t0 % 1000000000).toNat).setF F.PACE_ORIGIN_SEC_LO_SEC (sec % 2 ^ 32)).setF
    F.PACE_ORIGIN_SEC_HI_SEC (sec / 2 ^ 32)).setPace fun p => { p with tp := tp }

/-! ### Closing a job (R378) -/

/-- Credits and receive slots that the flows hold. -/
def State.fabHeld (s : State) : Nat :=
  sumNat (s.fab.flows.map fun e => e.2.spent + e.2.held.length + e.2.owed) + s.fab.parked.length +
    (s.events.filter fun e => match e with
      | .fabMsg _ _ _ _ _ => true
      | _ => false).length

/-- Every queued collective ends. -/
def State.endOps (s : State) (outcome reason : Nat) : Nat → State
  | 0 => s
  | n + 1 =>
    let s1 := if s.fab.running = none then s.setFab fun x => { x with opCount := x.opCount + 1 } else s
    (s1.endOp outcome reason).endOps outcome reason n

/-- The device leaves its job: its state becomes `st`, collectives end, and every flow closes. -/
def State.closeJob (s : State) (st outcome reason now : Nat) : State :=
  let held := s.fabHeld
  let s1 := (s.endOps outcome reason s.fab.ops.length).addF F.FAB_CRED_RECLAIM_COUNT held
  let fab : Fab := { wire := s1.fab.wire, moved := s1.fab.moved, toHost := s1.fab.toHost, closed := some (s.getF F.FAB_JOB_ID_JOBID) }
  let s2 : State := { s1 with fab := fab, events := s1.events.filter fun e => match e with
    | .fabMsg _ _ _ _ _ => false
    | .fabArrive _ => false
    | _ => true }
  ((((s2.setF F.FAB_JOB_STATE_STATE st).setF F.FAB_JOB_STATE_LEADER 0).setF F.PACE_CTRL_JOB_LOCK 0).setF F.FAB_JOB_FREQ_FJOB 0).retune now

/-- The device faults the job over the barrier of tick `k` (R377). -/
def State.faultJob (s : State) (k late now : Nat) : State :=
  let s1 := (s.setF (F.FAB_JOB_LATE_MEMBERS 0) (late % 2 ^ 32)).setF (F.FAB_JOB_LATE_MEMBERS 1) (late / 2 ^ 32)
  let s2 := s1.sendAll s1.others tyJfault (k % 2 ^ 32 * 2 ^ 32) (beBytes 8 late)
  (s2.fabRecord oFaulted rBarrierTimeout k (BitVec.ofNat 64 late)).closeJob stFaulted oFaulted rBarrierTimeout now

/-! ### FAB_JOB_CMD and FAB_JOB_TP at the snapshot (R368 to R371) -/

/-- Apply JOIN. -/
def State.joinApply (s : State) : State :=
  let r := s.jobRing
  if s.jobState ≠ stIdle ∨ s.fabMembers / 2 ^ s.fid % 2 = 0 ∨ s.getF F.PACE_STATUS_ALIGNED = 0 ∨ s.rEN r = 0 ∨ s.rPART r ≠ s.jobPart then
    s.raise F.FAB_STATUS_CMD_REJECT
  else
    let f := s.allowedF
    let s1 := (s.setF F.FAB_JOB_STATE_STATE stJoining).setFab fun x => { x with ownMhz := f, closed := none }
    s1.sendAll s1.others tyMemb (2 ^ 56 + f) (beBytes 4 s1.fabDigest)

/-- Apply LEAVE at the snapshot of edge `k`. (DEDUCED, log 72) -/
def State.leaveApply (s : State) (k now : Nat) : State :=
  if s.jobState = stJoining ∨ s.jobState = stFaulted then s.closeJob stIdle oAborted rFence now
  else if s.jobState = stFormed ∧ s.fab.ownLeave = none then
    (s.sendAll s.others tyMemb (2 * 2 ^ 56 + (k + 2) % 2 ^ 24 * 2 ^ 32) (beBytes 4 s.fabDigest)).setFab fun x => { x with ownLeave := some (k + 2) }
  else s

/-- Apply a write of FAB_JOB_TP: the leader's alone. (DEDUCED, log 72) -/
def State.jobTpApply (s : State) (v : W32) : State :=
  let tp := newF v F.FAB_JOB_TP_TP_US
  if s.jobState ≠ stFormed ∨ s.fabLeader ≠ s.fid ∨ inRng 1000 100000 tp = false then s.raise F.FAB_STATUS_WRITE_REJECT
  else (s.setF F.FAB_JOB_TP_TP_US tp).setFab fun x => { x with newTp := tp }

def fabWrite (port : Port) (off : Nat) (v : W32) (s : State) : Out := hostWrite port s fun s => s.latch (.cfgWrite off v)

def execFabJoin (port : Port) (s : State) : Out := fabWrite port 0x600110 0x40000000#32 s
def execFabLeave (port : Port) (s : State) : Out := fabWrite port 0x600110 0x80000000#32 s
def execFabJobTpWrite (port : Port) (w : W32) (s : State) : Out := fabWrite port 0x60011C w s

/-- A write of FAB_JOB_ARRIVE (R375). -/
def execFabJobArrive (port : Port) (w : W32) (s : State) : Out :=
  hostWrite port s fun s =>
    if s.jobState ≠ stFormed ∨ w.toNat ≠ s.fab.bar % 2 ^ 32 then s.raise F.FAB_STATUS_WRITE_REJECT
    else (s.sendAll s.others tyBarrier (w.toNat * 2 ^ 32) []).latch (.fabArrive w.toNat)

/-! ### The frequency agreement (R372 to R374) -/

/-- The leader sends the FANN it owes; a missing report is the member's last. -/
def State.announce (s : State) : State :=
  match s.fab.fannTick with
  | none => s
  | some k =>
    let rep (p : Nat) : Option Nat := (s.fab.reports.find? fun e => e.1 == k && e.2.1 == p).map (·.2.2)
    let ms := s.jobMembers
    let vals := ms.map fun p => (rep p).getD (tget nat0 s.fab.lastReport p)
    let late := (ms.filter fun p => (rep p).isNone).length
    let f := vals.foldl min (vals.headD 0)
    let eff := (k + 2) % 2 ^ 32
    let tp := s.fab.newTp
    let s1 := (s.addF F.FAB_FREQ_LATE_COUNT late).setFab fun x => { x with
      fannTick := none, newTp := 0, fanns := x.fanns ++ [(eff, tp, f)], reports := x.reports.filter fun e => e.1 != k }
    s1.sendAll s1.others tyFann (eff * 2 ^ 32 + tp * 2 ^ 12 + f % 4096) []

/-- The leader takes a report; with every member's report for the tick it announces. -/
def State.takeReport (s : State) (tick p mhz : Nat) : State :=
  if s.jobState ≠ stFormed ∨ s.fabLeader ≠ s.fid then s
  else
    let s1 := s.setFab fun x => { x with
      reports := x.reports.filter (fun e => ¬ (e.1 = tick ∧ e.2.1 = p)) ++ [(tick, p, mhz)], lastReport := tset nat0 x.lastReport p mhz }
    let all := s1.jobMembers.all fun q => s1.fab.reports.any fun e => e.1 == tick && e.2.1 == q
    if s1.fab.fannTick = some tick ∧ all then s1.announce else s1

/-- TP / 2 after the edge, reports are missing. -/
def execFannDeadline (now : Nat) (s : State) : Out :=
  if s.phase ≠ .up then .refused .cannotOccur
  else if s.fab.fannTick = none ∨ now < s.pace.edge + 500 * s.pace.tp then .refused .cannotOccur
  else .next s.announce

/-! ### Receiving (R361 to R364) -/

/-- A received message with the fields of its header. -/
structure HRecv where
  ver : Nat
  typ : Nat
  ackreq : Bool
  resv : Bool
  src : Nat
  dst : Nat
  jobid : Nat
  len : Nat
  seq : Nat
  ack : Nat
  tick : Nat
  credit : Nat
  arg : Nat
  payload : List Nat
  trailer : Bool
deriving DecidableEq, Repr

def recvOf (b : List Nat) : HRecv :=
  let len := beAt b 6 2
  let w0 := beAt b 0 8
  { ver := w0 / 2 ^ 60, typ := w0 / 2 ^ 56 % 16, ackreq := decide (w0 / 2 ^ 53 % 2 = 1),
    resv := decide (w0 / 2 ^ 48 % 32 ≠ 0 ∨ w0 / 2 ^ 32 % 16 ≠ 0 ∨ beAt b 22 2 ≠ 0), src := w0 / 2 ^ 42 % 64, dst := w0 / 2 ^ 36 % 64,
    jobid := beAt b 4 2, len := len, seq := beAt b 8 4, ack := beAt b 12 4, tick := beAt b 16 4, credit := beAt b 20 2,
    arg := beAt b 24 8, payload := (b.drop 32).take len,
    trailer := decide (crc32c (b.take (32 + len)) = beAt b (32 + len) 4) }

/-- LEN matches the frame: exactly, or an Ethernet frame padded to its least size. -/
def lenOk (frame b : List Nat) (len : Nat) : Bool :=
  let padded := match layersOf frame with
    | .ether _ _ => true
    | _ => false
  decide (b.length = 36 + len) || (padded && decide (36 + len ≤ b.length ∧ b.length ≤ 46))

/-- The message is dropped (R361). -/
def State.fabDrops (s : State) (frame b : List Nat) (sumOk : Bool) (m : HRecv) : Bool :=
  decide (b.length < 36) || decide (m.ver ≠ 1 ∨ 7 ≤ m.typ ∨ 4096 < m.len) || m.resv || !sumOk || !m.trailer || !lenOk frame b m.len ||
    decide (m.dst ≠ s.fid ∨ m.jobid ≠ s.getF F.FAB_JOB_ID_JOBID ∨ s.fab.closed = some m.jobid ∨ m.src ∉ s.jobMembers) ||
    (m.typ == tyMemb && decide (m.arg / 2 ^ 56 ≠ 1 ∧ m.arg / 2 ^ 56 ≠ 2))

/-- A message in flow order: DATA goes to its operation, FREQ is applied at once, and the other control messages
wait for the snapshot. -/
def State.inOrder (s : State) (p : Nat) (m : HMsg) : State :=
  if m.typ = tyData then s.dataIn p m
  else if m.typ = tyFreq then (s.modFlow p fun x => { x with owed := x.owed + 1 }).takeReport m.tick p (m.arg % 4096)
  else s.latch (.fabMsg m.seq p m.typ m.arg m.payload)

/-- Take every held message that is next in order. -/
def State.drainHeld (s : State) (p : Nat) : Nat → State
  | 0 => s
  | n + 1 =>
    let x := s.flow p
    match x.held.find? fun m => m.seq == x.rxNext with
    | none => s
    | some m =>
      ((s.modFlow p fun x => { x with rxNext := (x.rxNext + 1) % 2 ^ 32, held := x.held.filter fun h => h.seq != m.seq }).inOrder p m).drainHeld p n

/-- A message that is not dropped. -/
def State.receive (s : State) (m : HRecv) : State :=
  let p := m.src
  if (s.flow p).down then s
  else
    let s1 := (s.ackIn p m.ack m.credit (if m.typ = tyAck then beAt m.payload 0 8 else 0)).opProgress
    if m.typ = tyAck then s1
    else
      let x := s1.flow p
      if seqBefore m.seq x.rxNext ∨ x.held.any (fun h => h.seq == m.seq) then (s1.addF F.FAB_DUP_COUNT 1).ackOut p
      else
        let h : HMsg := { typ := m.typ, seq := m.seq, tick := m.tick, arg := m.arg, payload := m.payload }
        let s2 := s1.modFlow p fun x => { x with held := x.held ++ [h], unseen := x.unseen + 1 }
        let s3 := s2.drainHeld p (s2.flow p).held.length
        if m.seq ≠ x.rxNext ∨ m.ackreq ∨ 8 ≤ (s3.flow p).unseen then s3.ackOut p else s3

/-- A frame that is a Harness message of such a TYPE, or of a reserved one. -/
def fabRow (f : Nat) (frame : List Nat) (mine : HRecv → Bool) (s : State) : Out :=
  portEvent f s fun s =>
    match s.harnessOf f frame with
    | none => .refused .cannotOccur
    | some (b, ok) =>
      let m := recvOf b
      if mine m = false ∧ m.typ < 7 ∧ 36 ≤ b.length then .refused .cannotOccur
      else if s.fabDrops frame b ok m then .next (s.addF F.FAB_DROP_COUNT 1)
      else .next (s.receive m)

def execAckMsg (f : Nat) (frame : List Nat) (s : State) : Out := fabRow f frame (fun m => m.typ == tyAck) s
def execDataMsg (f : Nat) (frame : List Nat) (s : State) : Out := fabRow f frame (fun m => m.typ == tyData) s
def execBarrierMsg (f : Nat) (frame : List Nat) (s : State) : Out := fabRow f frame (fun m => m.typ == tyBarrier) s
/-- FREQ: a member reports its allowed frequency to the leader (R372, R373). (DEDUCED, log 70) -/
def execFreqMsg (f : Nat) (frame : List Nat) (s : State) : Out := fabRow f frame (fun m => m.typ == tyFreq) s
def execFannMsg (f : Nat) (frame : List Nat) (s : State) : Out := fabRow f frame (fun m => m.typ == tyFann) s
def execMembJoin (f : Nat) (frame : List Nat) (s : State) : Out :=
  fabRow f frame (fun m => m.typ == tyMemb && m.arg / 2 ^ 56 != 2) s
def execMembLeave (f : Nat) (frame : List Nat) (s : State) : Out :=
  fabRow f frame (fun m => m.typ == tyMemb && m.arg / 2 ^ 56 != 1) s
def execJfaultMsg (f : Nat) (frame : List Nat) (s : State) : Out := fabRow f frame (fun m => m.typ == tyJfault) s

/-! ### Timers and planes (R364, R366) -/

def peerEvent (p : Nat) (s : State) (k : Out) : Out :=
  if s.phase ≠ .up then .refused .cannotOccur else if 64 ≤ p then .refused .noSuchUnit else k

/-- 2 microseconds after the first message not acknowledged. -/
def execAckTimer (p : Nat) (s : State) : Out :=
  peerEvent p s <| if (s.flow p).unseen = 0 then .refused .cannotOccur else .next (s.ackOut p)

/-- RTO_US after the last transmission of message `seq`: the timeout counts against its plane, and the second in a
row on a plane makes the device avoid it. -/
def execRetransmitTimeout (p seq : Nat) (s : State) : Out :=
  peerEvent p s <|
    match (s.flow p).unacked.find? fun u => u.msg.seq == seq with
    | none => .refused .cannotOccur
    | some u =>
      let s1 := match u.plane with
        | none => s
        | some f => s.modFlow p fun x =>
          let n := tget nat0 x.timeouts f + 1
          { x with timeouts := tset nat0 x.timeouts f n, avoid := if 2 ≤ n ∧ f ∉ x.avoid then x.avoid ++ [f] else x.avoid }
      .next (s1.retransmit p u true)

/-- A plane that the device avoids towards a peer is tried again. -/
def execPlaneRetry (p f : Nat) (s : State) : Out :=
  peerEvent p s <|
    if f ∉ (s.flow p).avoid then .refused .cannotOccur
    else .next (s.modFlow p fun x => { x with avoid := x.avoid.filter (· ≠ f), timeouts := tset nat0 x.timeouts f 0 })

/-- Every message that a peer has not acknowledged goes out again on the other plane, using up no retry. -/
def State.resendAll (s : State) (p : Nat) : State := (s.flow p).unacked.foldl (fun t u => t.retransmit p u false) s

/-- The link of port `f` fails. -/
def State.portDown (s : State) (f now : Nat) : State :=
  let s1 := (s.setF (F.FAB_PORT_STATE f) 1).latch .fabReport
  let s2 := if (s1.ptp f).locked then s1.ptpLose f now else s1
  let s3 := if s2.flag F.FAB_CTRL_INGEST_MOVE ∧ s2.portPresent (1 - f) ∧ f ∉ s2.fab.moved then
    s2.setFab fun x => { x with moved := x.moved ++ [f] } else s2
  if s3.upPorts = [] then
    let ps := if s3.jobState = stJoining ∨ s3.jobState = stFormed then s3.others else s3.fab.flows.map (·.1)
    (ps.filter fun p => !(s3.flow p).down).foldl State.flowDown s3
  else (s3.fab.flows.map (·.1)).foldl State.resendAll s3

def portRow (f st : Nat) (s : State) (k : Out) : Out :=
  if s.phase ≠ .up then .refused .cannotOccur
  else if 2 ≤ f ∨ s.getF (F.FAB_PORT_STATE f) = 0 then .refused .noSuchUnit
  else if s.getF (F.FAB_PORT_STATE f) ≠ st then .refused .cannotOccur
  else k

/-- A port goes DOWN: its flows move to the other plane (R366). (DEDUCED, log 74) -/
def execPortDown (f now : Nat) (s : State) : Out := portRow f 2 s <| .next (s.portDown f now)

/-- The link of port `f` is restored: its ingest addresses move back. -/
def execPortUp (f : Nat) (s : State) : Out :=
  portRow f 1 s <| .next (((s.setF (F.FAB_PORT_STATE f) 2).latch .fabReport).setFab fun x => { x with moved := x.moved.filter (· ≠ f) })

/-! ### The snapshot and the edge (R369 to R378) -/

/-- The arrival of a member at the barrier of a tick is applied. -/
def State.arrival (s : State) (tick p : Nat) : State :=
  if (s.jobState = stJoining ∨ s.jobState = stFormed) ∧ seqBefore tick (s.fab.bar % 2 ^ 32) = false then
    s.setFab fun x => { x with arrivals := tmod nat0 x.arrivals tick fun m => if m / 2 ^ p % 2 = 1 then m else m + 2 ^ p }
  else s

/-- The full tick number that low bits of width `w` name at edge `k`, at or after it, or else the edge itself. -/
def tickFrom (w k low : Nat) : Nat :=
  let d := (low + 2 ^ w - k % 2 ^ w) % 2 ^ w
  if d < 2 ^ (w - 1) then k + d else k

/-- Apply a control message at the snapshot of edge `k` (class 6); its slot is free afterwards. (DEDUCED, log 72) -/
def State.fabMsgApply (s : State) (k p typ arg : Nat) (payload : List Nat) : State :=
  let s1 := s.modFlow p fun x => { x with owed := x.owed + 1 }
  if (s.flow p).down then s
  else if typ = tyBarrier then
    if arg / 2 ^ 31 % 2 = 0 then s1.arrival (arg / 2 ^ 32) p
    else (s1.setFab fun x => { x with opBars := x.opBars ++ [(arg % 256, p)] }).opProgress
  else if typ = tyFann then
    if s.jobState = stFormed then s1.setFab fun x => { x with fanns := x.fanns ++ [(arg / 2 ^ 32, arg / 2 ^ 12 % 2 ^ 17, arg % 4096)] } else s1
  else if typ = tyMemb then
    if arg / 2 ^ 56 = 1 then
      let d := beAt payload 0 4
      if d = s1.fabDigest then s1.setFab fun x => { x with joins := x.joins.filter (fun e => e.1 != p) ++ [(p, d, arg % 4096)] }
      else s1.raise F.FAB_JOB_STATE_DIGEST_MISMATCH
    else s1.setFab fun x => { x with leaves := x.leaves ++ [(p, tickFrom 24 k (arg / 2 ^ 32 % 2 ^ 24))] }
  else if s.jobState = stFormed ∧ s.fab.jfault = none then
    s1.setFab fun x => { x with jfault := some (arg / 2 ^ 32, beAt payload 0 8) }
  else s1

/-- Announcements that take effect at edge `k`: a new period first, then F_job; a member that has none counts a miss. -/
def State.fannEffect (s : State) (k now : Nat) : State :=
  match s.fab.fanns.find? fun e => e.1 == k % 2 ^ 32 with
  | some (_, tp, f) =>
    let s1 := if tp = 0 then s else s.setPeriod tp now k
    ((s1.setF F.FAB_JOB_FREQ_FJOB f).setFab fun x => { x with fanns := x.fanns.filter fun e => e.1 != k % 2 ^ 32 }).retune now
  | none => if s.fab.k0 + 2 ≤ k then s.addF F.FAB_FANN_MISS_COUNT 1 else s

/-- Leaves that take effect at edge `k`: peers clear the bits, and an operation that waited for a member that has left
alone completes. -/
def State.leaveEffect (s : State) (k : Nat) : State :=
  let gone := (s.fab.leaves.filter fun e => decide (e.2 ≤ k)).map (·.1)
  let s1 := s.setFab fun x => { x with live := bitmapOf ((bitsOf x.live).filter fun p => decide (p ∉ gone)),
                                       leaves := x.leaves.filter fun e => decide (k < e.2) }
  let m := bitmapOf ((bitsOf s.fabMembers).filter fun p => decide (p ∉ gone))
  (((s1.setF (F.FAB_JOB_MEMBERS_MEMBERS 0) (m % 2 ^ 32)).setF (F.FAB_JOB_MEMBERS_MEMBERS 1) (m / 2 ^ 32)).setF F.FAB_JOB_STATE_LEADER
    s1.fabLeader).opProgress

/-- The job forms once JOINs of equal digest from every member have been applied (R369). -/
def State.formJob (s : State) (k now : Nat) : State :=
  let d := s.fabDigest
  let join (p : Nat) : Option Nat := (s.fab.joins.find? fun e => e.1 == p && e.2.1 == d).map (·.2.2)
  if s.others.any fun p => (join p).isNone then s
  else
    let ms := bitsOf s.fabMembers
    let mhz (p : Nat) : Nat := if p = s.fid then s.fab.ownMhz else (join p).getD 0
    let f := (ms.map mhz).foldl min s.fab.ownMhz
    let last := ms.foldl (fun (t : Tbl Nat) p => tset nat0 t p (mhz p)) []
    let s1 := s.setFab fun x => { x with live := s.fabMembers, k0 := k, bar := k, lastReport := last, joins := [], opCount := 0 }
    let s2 := ((s1.setF F.FAB_JOB_STATE_STATE stFormed).setF F.PACE_CTRL_JOB_LOCK 1).setF F.FAB_JOB_FREQ_FJOB f
    (s2.setF F.FAB_JOB_STATE_LEADER s2.fabLeader).retune now

/-- Barriers complete in tick order at edge `k` (R376). -/
def State.completeBarriers (s : State) (k : Nat) : Nat → State
  | 0 => s
  | n + 1 =>
    let t := s.fab.bar
    let in_ := tget nat0 s.fab.arrivals (t % 2 ^ 32)
    if t < k ∧ s.jobMembers.all (fun p => decide (in_ / 2 ^ p % 2 = 1)) then
      let s1 := s.setFab fun x => { x with bar := t + 1, arrivals := tset nat0 x.arrivals (t % 2 ^ 32) 0 }
      ((s1.setF F.FAB_JOB_BAR_TICK_TICK (t % 2 ^ 32)).signalVec (s.rOWNER s.jobRing) (s.rVEC s.jobRing)).completeBarriers k n
    else s

/-- The barrier due at edge `k` has timed out (R377). -/
def State.barrierLate (s : State) (k : Nat) : Bool :=
  decide (s.jobState = stFormed ∧ s.fab.bar + 1 + s.getF F.FAB_JOB_CFG_BTO ≤ k)

/-- Members whose arrival for the barrier due is missing. -/
def State.lateMembers (s : State) : Nat :=
  bitmapOf (s.jobMembers.filter fun p => decide (tget nat0 s.fab.arrivals (s.fab.bar % 2 ^ 32) / 2 ^ p % 2 = 0))

/-- The report of edge `k`: to the leader, which counts its own (R372). -/
def State.sendReport (s : State) (k : Nat) : State :=
  let f := s.allowedF
  let s1 := s.setF F.FAB_JOB_FREQ_ALLOWED f
  if s.fabLeader = s.fid then ((s1.announce).setFab fun x => { x with fannTick := some (k % 2 ^ 32) }).takeReport (k % 2 ^ 32) s.fid f
  else s1.sendMsg s.fabLeader tyFreq f []

/-- What the fabric does at edge `k`, once the control messages of the snapshot have been applied: announcements,
leaves, the forming of a job, barriers, a JFAULT. A barrier that times out is left to BARRIER_TIMEOUT. -/
def State.fabEdge (s : State) (k now : Nat) : State :=
  let s1 := if s.jobState = stFormed then (s.fannEffect k now).leaveEffect k else s
  let s2 := if s1.jobState = stFormed ∧ s1.fab.ownLeave.any (fun e => decide (e ≤ k)) then s1.closeJob stIdle oAborted rFence now else s1
  let s3 := if s2.jobState = stJoining then s2.formJob k now else s2
  if s3.jobState ≠ stFormed then s3
  else
    let s4 := s3.completeBarriers k (k - s3.fab.bar)
    match s4.fab.jfault with
    | some (t, late) => s4.faultJob t late now
    | none => if s4.barrierLate k then s4.setFab fun x => { x with timedOut := true } else s4.sendReport k

/-- The barrier due has not completed by its last edge: the device faults the job. -/
def State.barrierFault (s : State) (now : Nat) : State := s.faultJob s.fab.bar s.lateMembers now

def execBarrierTimeout (now : Nat) (s : State) : Out :=
  if s.phase ≠ .up then .refused .cannotOccur
  else if s.fab.timedOut = false then .refused .cannotOccur
  else .next (s.barrierFault now)

end Sys2Proof.Machine
end

