-- ==== Sys2Proof/Machine/Sched.lean ====
section
/-!
DEFINITION. The Dispatcher: shares and the capacity condition, frame jobs, admission and the choice of cores
(R202, R280, R320, R341 to R344, R347).
-/
namespace Sys2Proof.Machine

/-! ### Shares (R344, R352) -/

/-- A write of DISP_CTRL, which acts at once: a GPCT that breaks the condition for some partition is ignored. -/
def State.gpctWrite (s : State) (v : W32) : State :=
  if inRng 50 100 (newF v F.DISP_CTRL_GPCT) = false then s
  else
    let t := s.setF F.DISP_CTRL_GPCT (newF v F.DISP_CTRL_GPCT)
    if (List.range 8).any fun p => (s.part p).live && !t.guarOk p then s.guarReject else t

/-- A write of DISP_P_HSHARE_G at the snapshot. -/
def State.hshareApply (s : State) (off : Nat) (v : W32) : State :=
  let t := s.wr off v
  if off % 16 = 0 ∧ t.guarOk ((off - 0x200100) / 16) = false then s.guarReject else t

/-- A write of GPCT, or of a DISP_P register, which the VFs of the partition write too. (DEDUCED, log 43) -/
def execDispShareWrite (port : Port) (off : Nat) (w : W32) (s : State) : Out :=
  if s.phase ≠ .up then unreached s
  else if off = 0x200000 then .next (if portHost port then s.gpctWrite w else s.denied port)
  else if off < 0x200100 ∨ 0x200180 ≤ off ∨ 8 ≤ off % 16 ∨ off % 4 ≠ 0 then .refused .noSuchUnit
  else if s.partPort port ((off - 0x200100) / 16) then .next (s.latch (.cfgWrite off w))
  else .next (s.denied port)

/-! ### Frame jobs (R320, R347) -/

/-- The template of stream context `n`, by word. -/
def State.template (s : State) (n : Nat) : List W64 :=
  (List.range 8).map fun i =>
    let a := 0x240000 + 64 * n + 8 * i
    BitVec.ofNat 64 ((s.rd a).toNat + (s.rd (a + 4)).toNat * 2 ^ 32)

def tplResv (w : List W64) : Bool :=
  descResv (w.take 7) && clearOf (w.getD 7 0#64) (maskOf 62 46 + maskOf 31 0)

/-- Word 0 with STRM = 1 and SCTX = n. -/
def strmWord (w : W64) (n : Nat) : W64 :=
  BitVec.ofNat 64 (w.toNat / 2 ^ 48 * 2 ^ 48 + n % 4096 * 2 ^ 36 + w.toNat % 2 ^ 36) ||| BitVec.ofNat 64 (2 ^ 54)

/-- Apply a frame-ready event; `none` where it stays latched, because its ring cannot reserve two records.
(DEDUCED, log 41) -/
def State.frameReadyApply (s : State) (n num fb slot0 slot1 : Nat) (conc : Bool) : Option State :=
  let w := s.template n
  let r := bits (w.getD 7 0#64) 45 32
  let freed := s.freeSlots n slot0 slot1
  if bit (w.getD 7 0#64) 63 = false ∨ s.rEN r = 0 then some freed
  else if s.cqRoomFor r 2 = false then none
  else
    let p := s.cPART n
    let j0 := jobOf r p num w
    let j : Job := { j0 with frame := true, strm := true, sctx := n, epoch := 2 ^ 31 + s.frameEpoch, slot0 := slot0, slot1 := slot1,
                             fbidx := fb, concealed := conc, cookie := BitVec.ofNat 64 (j0.cookie.toNat / 2 ^ 32 * 2 ^ 32 + num % 2 ^ 32) }
    let s1 := (s.modRing r fun x => { x with resv := x.resv + 2 }).setF (rPENDING r) (s.getF (rPENDING r) + 1)
    let f1 := s1.freeSlots n slot0 slot1
    if s.cSTATE n ≠ 1 then some ((f1.addF F.DISP_REFUSED_COUNT 1).plainRecord r j oRefused 0x12)
    else match s.decodeCheck p (w.set 0 (strmWord (w.getD 0 0#64) n)) (tplResv w) true with
    | some reason => some ((f1.addF F.DISP_REFUSED_COUNT 1).plainRecord r j oRefused reason)
    | none =>
      let e := (s.frameEpoch + 1) % 2 ^ 31
      if bits (w.getD 0 0#64) 63 56 = 0 ∨ j.ncores = 0 then some (f1.plainRecord r j oServed rOK)
      else if s.partGone p then some (f1.plainRecord r j oAborted rFence)
      else some { s1.newJob { j with holds := true } with frameEpoch := if e = 0 then 1 else e }

/-! ### The choice of cores (R280) -/

/-- Bytes of an object that a Team's slice holds. -/
def State.sliceBytes (s : State) (p t : Nat) (obj : Option Nat) : Nat :=
  match obj with
  | none => 0
  | some id =>
    let x := s.obj p id
    sumNat ((numbered 0 x.segs).map fun g => match g.2.pool with
      | some a => if poolBase t ≤ a ∧ a < poolBase (t + 1) then x.segLen g.1 else 0
      | none => 0)

/-- Candidate cores in the order of R280, by the budget left to each. -/
def State.coreOrder (s : State) (p : Nat) (obj : Option Nat) (left : Nat → Int) (cores : List Nat) : List Nat :=
  let teams := partTeams (s.part p)
  let first := teams.foldl (fun (b : Option (Nat × Nat)) t =>
    let n := s.sliceBytes p t obj
    match b with
    | none => if n = 0 then none else some (t, n)
    | some (_, m) => if m < n then some (t, n) else b) none
  let total (t : Nat) : Int := ((cores.filter fun c => c / 8 == t).map left).foldl (· + ·) 0
  let big : Int := 2 ^ 50
  let byTeam := sortBy (fun t => if first.map (·.1) = some t then 0 else (big - total t).toNat) teams
  byTeam.flatMap fun t => sortBy (fun c => (big - left c).toNat) (cores.filter fun c => c / 8 == t)

/-! ### Admission (R341, R342) -/

/-- The state with the budget left to each core, and what each share has been charged in this tick: stream n at n,
partition p's GUARANTEED jobs at 4096 + 2p, its other jobs at 4097 + 2p. -/
structure Adm where
  s : State
  left : Tbl Int
  used : Tbl Nat

def int0 : Nat → Int := fun _ => 0
def Adm.leftOf (a : Adm) (c : Nat) : Int := tget int0 a.left c

/-- The job as its stream context stands at admission. -/
def State.refreshJob (s : State) (j : Job) : Job :=
  if j.strm then { j with cls := s.cCLASS j.sctx, escMode := s.cx j.sctx 1 61 60 } else j

/-- The KV context bound to the stream. -/
def State.jobKv (s : State) (j : Job) : Option KvCtx :=
  if j.strm ∧ j.kv ∧ s.cx j.sctx 1 59 59 = 1 then some (s.kvRead j.part (s.cx j.sctx 1 58 47)) else none

def Job.shareKey (j : Job) : Nat := if j.strm then j.sctx else 4096 + 2 * j.part + (if j.cls = 0 then 0 else 1)
def State.shareOf (s : State) (j : Job) : Nat :=
  if j.strm then s.cBUDGET j.sctx
  else if j.cls = 0 then s.getF (F.DISP_P_HSHARE_G_CYCLES j.part) else s.getF (F.DISP_P_HSHARE_CYCLES j.part)

/-- Admit job `i` on `cores` at a demand of `d` per core. -/
def Adm.enter (a : Adm) (i : Nat) (j : Job) (d : Nat) (cores : List Nat) : Adm :=
  let kv := a.s.jobKv j
  let j1 : Job := { j with admitted := true, admitTick := a.s.tick, demand := d, cores := cores, guardMode := a.s.getF (F.RAS_GUARD_MODE j.part),
                           kvLen := (kv.map (·.len)).getD 0, kvBase := (kv.map (·.baseTok)).getD 0, throttle := j.throttle ||| a.s.rein.inTick }
  let s1 := cores.foldl (fun t c => match t.slotOf c with
    | some k => t.modCore k fun x => { x with jobQ := x.jobQ ++ [i] }
    | none => t) (a.s.setJob i j1)
  { s := s1.addF F.DISP_ADMITTED_COUNT 1, left := cores.foldl (fun t c => tset int0 t c (tget int0 t c - d)) a.left,
    used := tmod nat0 a.used j.shareKey (· + j.ncores * d) }

def Adm.refuse (a : Adm) (i reason : Nat) : Adm := { a with s := (a.s.addF F.DISP_REFUSED_COUNT 1).finalRecord i oRefused reason }

/-- Defer a new STANDARD job: an interim record. -/
def Adm.defer (a : Adm) (i : Nat) (j : Job) (reason : Nat) : Adm :=
  let j1 : Job := { j with deferred := true }
  let s1 := ((a.s.setJob i j1).unreserve j.ring 1).writeRecord j.ring j oDeferred reason false false
  { a with s := { s1.addF F.DISP_DEFERRED_COUNT 1 with deferred := s1.deferred ++ [i] } }

/-- Test one candidate. `late` says that it was deferred at the edge before. A core whose budget left has fallen below zero
takes a GUARANTEED job, which is admitted in any case, only where too few others are left. (DEDUCED, log 103) -/
def Adm.test (a : Adm) (i : Nat) (late : Bool) : Adm :=
  let s := a.s
  let j := s.refreshJob (s.job i)
  let d := j.cost + (if j.escMode = 2 then j.reserve else 0)
  let cores := s.coresOf j.part
  let kv := s.jobKv j
  let fitting (x : Nat) : List Nat := cores.filter fun c => decide ((x : Int) ≤ a.leftOf c)
  let pick (l : List Nat) : List Nat := (s.coreOrder j.part j.obj0 a.leftOf l).take j.ncores
  let j1 : Job := { j with suppressed := true, escMode := 1 }
  let kvOff : Bool := match kv with
    | some k => decide (k.state ≠ 1)
    | none => true
  if j.strm ∧ (s.cSTATE j.sctx ≠ 1 ∨ (j.kv ∧ kvOff)) then a.refuse i 0x12
  else if cores.length < j.ncores then a.refuse i 0x10
  else if s.shareOf j < tget nat0 a.used j.shareKey + j.ncores * d then a.refuse i 0x11
  else if j.cls = 0 then
    let open_ := cores.filter fun c => decide (0 ≤ a.leftOf c)
    a.enter i j d ((pick open_ ++ pick (cores.filter fun c => c ∉ open_)).take j.ncores)
  else if j.ncores ≤ (fitting d).length then a.enter i j d (pick (fitting d))
  else if j.cls = 1 ∧ late = false then a.defer i j (if j.ncores ≤ (fitting j.cost).length then 0x09 else 0x08)
  else if (late ∨ j.escMode = 2) ∧ j.ncores ≤ (fitting j.cost).length then a.enter i j1 j.cost (pick (fitting j.cost))
  else a.refuse i 0x10

/-- The candidates of a partition, in the order of R341 by the class that each now has, and whether each is a deferred
one. -/
def State.candidates (s : State) (p : Nat) (late : List Nat) : List (Nat × Bool) :=
  let mine := s.jobs.filter fun e => e.2.part == p && !e.2.admitted
  let of (c : Nat) : List (Nat × Bool) :=
    (mine.filter fun e => (s.refreshJob e.2).cls == c).map fun e => (e.1, decide (e.1 ∈ late))
  let held := (late.filter fun i => (of 1).any fun e => e.1 == i).map fun i => (i, true)
  of 0 ++ held ++ (of 1).filter (fun e => !e.2) ++ of 2 ++ of 3

/-- G_OVERCOMMIT shows whether the condition fails for some partition. -/
def State.showOvercommit (s : State) : State :=
  s.setF F.DISP_STATUS_G_OVERCOMMIT (if (List.range 8).any fun p => (s.part p).live && !s.guarOk p then 1 else 0)

/-- Admit the work of the tick, within the budget of each core. Nothing of a partition that is being loaded is tested
before its load is complete (R94): its jobs wait as they are, the deferred ones still deferred. (DEDUCED, log 77) -/
def State.admitAll (s : State) : State :=
  let waits (i : Nat) : Bool := (s.part (s.job i).part).loading
  let late := s.deferred.filter fun i => !waits i
  let left : Tbl Int := (List.range 64).foldl (fun t c => tset int0 t c (tget int0 s.budget c)) []
  let a : Adm := { s := { s with deferred := s.deferred.filter waits }, left := left, used := [] }
  let ps := (List.range 8).filter fun p => !(s.part p).loading
  (ps.foldl (fun (a : Adm) p => (a.s.candidates p late).foldl (fun (b : Adm) e => b.test e.1 e.2) a) a).s.showOvercommit

end Sys2Proof.Machine
end

