-- ==== Sys2Proof/Machine/Hallmark.lean ====
section
/-!
DEFINITION. The fuses, the device identity and the Hallmarks (R391, R392, R417 to R420).
-/
namespace Sys2Proof.Machine

/-! ### Fuses (R391, R392) -/

def State.fuseByte (s : State) (a : Nat) : Nat := tget nat0 s.bootFuses a
def State.fuseBytes (s : State) (a n : Nat) : List Nat := (List.range n).map fun i => s.fuseByte (a + i)
def State.fuseN (s : State) (a n : Nat) : Nat := leNat (s.fuseBytes a n)

/-- The bits set among the lowest `w` of a number. -/
def bitsSet (w n : Nat) : Nat := ((List.range w).filter fun i => n / 2 ^ i % 2 = 1).length

def State.keyDigest (s : State) (n : Nat) : Nat := s.fuseN (32 * n) 32
def State.programmed (s : State) (n : Nat) : Bool := decide (s.keyDigest n ≠ 0)
def State.revoked (s : State) (n : Nat) : Bool := decide (5 ≤ bitsSet 8 (s.fuseByte (0x80 + n)))
def State.slotUsable (s : State) (n : Nat) : Bool := decide (n < 4) && s.programmed n && !s.revoked n
def State.fuseFloor (s : State) : Nat := bitsSet 64 (s.fuseN 0x84 8) * 65536
def State.variant (s : State) : Nat := s.fuseByte 0x8C
def State.serial (s : State) : List Nat := s.fuseBytes 0xE0 16

/-- KEYS of the Hallmark, and ASSAY_KEYSLOT: revoked slots above programmed ones. -/
def State.keySlots (s : State) : Nat :=
  maskOfFlags ((List.range 4).map s.programmed) + 16 * maskOfFlags ((List.range 4).map s.revoked)

/-- The state whose checks go by the fuses as they stand: what an operation may still burn is judged so, and Hallmarks show
them (R418). -/
def State.liveFuses (s : State) : State := { s with bootFuses := s.fuses }

/-- Fresh words from the random source. -/
def State.drawNonce (s : State) : State :=
  (List.range 8).foldl (fun u i => (u.setF (F.MB_NONCE_NONCE i) (u.free % 2 ^ 32)).used1) s

/-! ### Identity (R417) -/

/-- "HLMK-ID" and "HLMK-KEM". -/
def idLabel : List Nat := [0x48, 0x4C, 0x4D, 0x4B, 0x2D, 0x49, 0x44]
def kemLabel : List Nat := [0x48, 0x4C, 0x4D, 0x4B, 0x2D, 0x4B, 0x45, 0x4D]

/-- Bytes cut or padded to a length. -/
def fitBytes (n : Nat) (b : List Nat) : List Nat := (b ++ List.replicate n 0).take n

def State.idSeed (s : State) : Nat := Config.shake256 48 (leBytes 64 s.assay.cdi ++ idLabel)
def State.kemSeed (s : State) : Nat := Config.shake256 64 (leBytes 64 s.assay.cdi ++ kemLabel)
def State.idPub (s : State) : List Nat := fitBytes 1793 (Config.falconPublic s.idSeed)
def State.kemPub (s : State) : List Nat := fitBytes 1568 (Config.kemPublic s.kemSeed)
def State.idDigest (s : State) : Nat := Config.shake256 32 s.idPub
def State.sign (s : State) (msg : List Nat) : List Nat := fitBytes 1280 (Config.falconSign s.idSeed msg)

/-! ### The Device Hallmark (Table TR-5) -/

/-- The VFs of a partition, as a bitmap. -/
def State.vfMap (s : State) (p : Nat) : Nat := ((List.range 64).map fun v => if s.vfPart v = some p then 2 ^ v else 0).foldl (· + ·) 0

/-- Entry `p` of LAYOUT. -/
def State.layoutOf (s : State) (p : Nat) : List Nat :=
  let x := s.part p
  let st := if x.live then 1 else if x.scrub then 2 else 0
  [st, if st = 0 then 0 else x.teams, 0, 0] ++ leBytes 2 (if st = 0 then 0 else x.gddrBase) ++ leBytes 2 (if st = 0 then 0 else x.gddrSize) ++
    leBytes 8 (if st = 1 then s.vfMap p else 0)

def State.bootByte (s : State) : Nat :=
  s.getF F.ASSAY_BOOT_STATUS_SET + 2 * s.getF F.ASSAY_BOOT_STATUS_WAKE + 4 * s.getF F.ASSAY_BOOT_STATUS_FALLBACK +
    8 * s.getF F.ASSAY_BOOT_STATUS_RECOVERY

def State.dbgNow (s : State) : Nat :=
  s.getF F.DBG_SESSION_STATUS_JTAG_EN + 2 * s.getF F.DBG_SESSION_STATUS_JTAG_ATTACHED + 4 * s.getF F.DBG_SESSION_STATUS_PF_OPEN

/-- Bytes 0x048 to 0x1EF: what changes beside HSEQ, NONCE and TICK. -/
def State.deviceFields (s : State) : List Nat :=
  let im (i : Nat) : Image := (s.assay.images[i]?).getD {}
  (List.range 4).flatMap (fun i => leBytes 64 (im i).digest) ++ (List.range 4).flatMap (fun i => leBytes 4 (im i).version) ++
    leBytes 4 (s.getF F.ASSAY_MINVER_MINVER) ++ leBytes 4 s.liveFuses.fuseFloor ++ [s.liveFuses.keySlots, s.bootByte, 0, 0, s.dbgNow,
    s.getF F.DBG_SESSION_STATUS_REACHED, 0, 0] ++ leBytes 4 (s.getF F.TRUST_DBG_JTAG_COUNT) ++ leBytes 4 (s.getF F.TRUST_DBG_PF_COUNT) ++
    (List.range 8).flatMap s.layoutOf

/-- Bytes 0x000 to 0xF27 for a nonce, of the state at the last snapshot. -/
def State.deviceBody (s : State) (nonce : List Nat) : List Nat :=
  leBytes 4 0x4B4D4C48 ++ leBytes 2 1 ++ leBytes 2 0x1428 ++ leBytes 4 (s.rd 0).toNat ++ leBytes 4 s.assay.hseq ++ s.serial ++
    fitBytes 32 nonce ++ leBytes 8 s.tick ++ s.assay.shown ++ List.replicate 16 0 ++ s.kemPub ++ s.idPub ++ List.replicate 7 0

/-- The whole signed Device Hallmark. -/
def State.deviceHallmark (s : State) (nonce : List Nat) : List Nat := s.deviceBody nonce ++ s.sign (s.deviceBody nonce)

/-! ### Partition Hallmarks (Table TR-6) -/

/-- The bound sets that a partition holds, at most 64. -/
def State.setsOf (s : State) (p : Nat) : List BoundSet :=
  (s.assay.sets.filter fun (b : BoundSet) => b.part == p && (s.obj p b.obj).bound && (s.obj p b.obj).stage != 0).take 64

/-- Its fields but for HSEQ, NONCE, TICK and DEVICE_DIGEST: PART to NWEIGHT, SCTX_FIRST to IMPORTS, and PROG_CURRENT
to SETS, one after another. -/
def State.partFields (s : State) (p : Nat) : List Nat :=
  let x := s.part p
  let l := s.setsOf p
  [p, x.teams] ++ leBytes 2 l.length ++ leBytes 2 x.sctxFirst ++ leBytes 2 x.sctxCount ++ leBytes 4 x.dbgSessions ++ leBytes 8 (s.vfMap p) ++
    leBytes 4 x.progLoads ++ leBytes 4 x.imports ++ leBytes 64 x.progCurrent ++ leBytes 64 x.progChain ++ leBytes 64 x.weightChain ++
    l.flatMap fun b => leBytes 8 b.bundle ++ leBytes 2 b.obj ++ List.replicate 6 0 ++ leBytes 64 b.digest

def shown0 : Nat → List Nat := fun _ => []

def State.partBody (s : State) (p : Nat) (nonce : List Nat) : List Nat :=
  let f := tget shown0 s.assay.partShown p
  let n := leNat ((f.drop 2).take 2)
  leBytes 4 0x50484C48 ++ leBytes 2 1 ++ leBytes 2 (0x650 + 80 * n) ++ f.take 4 ++ leBytes 4 (s.part p).hseq ++ fitBytes 32 nonce ++
    leBytes 8 s.tick ++ (f.drop 4).take 24 ++ leBytes 64 (Config.shake256 64 (s.deviceBody nonce)) ++ f.drop 28

def State.partHallmark (s : State) (p : Nat) (nonce : List Nat) : List Nat := s.partBody p nonce ++ s.sign (s.partBody p nonce)

/-! ### HSEQ (R418) -/

/-- The state that a snapshot leaves is what Hallmarks show; HSEQ counts the snapshots that changed it. -/
def State.noteHallmark (s : State) : State :=
  let f := s.deviceFields
  let s1 := if f = s.assay.shown then s else { s with assay := { s.assay with shown := f, hseq := s.assay.hseq + 1 } }
  (List.range 8).foldl (fun u p =>
    if (u.part p).live then
      let g := u.partFields p
      if g = tget shown0 u.assay.partShown p then u
      else
        let n := if tget shown0 u.assay.partShown p = [] then 0 else (u.part p).hseq + 1
        { u with assay := { u.assay with partShown := tset shown0 u.assay.partShown p g }, parts := tset part0h u.parts p { (u.part p) with hseq := n } }
    else { u with assay := { u.assay with partShown := tset shown0 u.assay.partShown p [] } }) s1

/-- At the end of a boot HSEQ is 0. -/
def State.showHallmark (s : State) : State := { s with assay := { s.assay with shown := s.deviceFields, hseq := 0 } }

end Sys2Proof.Machine
end

