-- ==== Sys2Proof/Machine/Boot.lean ====
section
/-!
DEFINITION. Secure start (R385 to R411): the fuses, the flash and its images, the boot from t0 to DRT_READY,
halts, the retry with the other image set, the wake path and recovery; and the resets that begin a boot. The
firmware's work is the effect of the command that begins it; what the board shows is an operand.
-/
namespace Sys2Proof.Machine

/-! ### The variant (R7, R10, R59) -/

/-- GLB_IDENT and the capability registers of a variant (Table SC-6). -/
def variantRegs (v : Nat) : List Nat :=
  match v with
  | 1 => [0x0C070110, 0x00FFFFFF, 0xFFFFFFF8, 0x00001003]
  | 2 => [0x0C070210, 0x00003F3F, 0x00FFFFC8, 0x00001001]
  | _ => [0x0C070310, 0x00FFFFFF, 0xFFFF0038, 0x00001003]

/-- The Team is present on the variant. -/
def variantTeam (v t : Nat) : Bool := decide (t < 8 ∧ (variantRegs v).getD 1 0 / 2 ^ t % 2 = 1)

/-- The fuses that halt the boot with FUSE_READ_FAIL. -/
def State.fusesBad (s : State) : Bool :=
  decide (s.variant = 0 ∨ 3 < s.variant) || (List.range 8).any fun t =>
    let r := s.fuseByte (0x90 + t)
    decide (128 ≤ r) && (decide (8 ≤ r % 16) || !variantTeam s.variant t)

/-- Which fabric ports exist (Table HF-6): an absent one shows ABSENT. -/
def State.markPorts (s : State) : State :=
  (List.range 2).foldl (fun u f => if u.getF F.GLB_CAP_IO_FAB_PORT_PRESENT / 2 ^ f % 2 = 0 then u.setF (F.FAB_PORT_STATE f) 0 else u) s

/-- The logical map at the first release (R59). -/
def State.mapCores (s : State) : State :=
  (List.range 64).foldl (fun u n =>
    let t := n / 8
    let r := s.fuseByte (0x90 + t)
    let slot := if 128 ≤ r ∧ r % 16 = n % 8 then 8 else n % 8
    ((u.setF (F.RAS_LMAP_PRESENT n) (if variantTeam s.variant t then 1 else 0)).setF (F.RAS_LMAP_TEAM n) t).setF (F.RAS_LMAP_SLOT n) slot) s

/-! ### Flash (R393, R394) -/

def flash0 : Nat → Byte := fun _ => 0xFF#8
def State.flashBytes (s : State) (a n : Nat) : List Nat := (List.range n).map fun i => (tget flash0 s.flash (a + i)).toNat
def State.putFlash (s : State) (a : Nat) : List Nat → State
  | [] => s
  | b :: l => State.putFlash { s with flash := tset flash0 s.flash a (BitVec.ofNat 8 b) } (a + 1) l

/-- A field of `n` bytes within bytes. -/
def le (b : List Nat) (off n : Nat) : Nat := leNat ((b.drop off).take n)

/-- First byte of an image set. -/
def setBase (set : Nat) : Nat := if set = 0 then 0x100000 else 0xD00000
/-- The protected region ends here. -/
def flashTop : Nat := 0x1900000

/-- A directory copy: SEQ, ACTIVE, and the offsets of both sets (Table AS-4). -/
structure DirCopy where
  seq : Nat := 0
  active : Nat := 0
  offs : List (List Nat) := []
deriving DecidableEq, Repr

def State.dirCopy (s : State) (i : Nat) : Option DirCopy :=
  let b := s.flashBytes (0x1000 * i) 52
  if le b 0 4 ≠ 0x44495243 ∨ le b 48 4 ≠ crc32c (b.take 48) ∨ 1 < le b 8 1 then none
  else
    let set (o : Nat) : List Nat := (List.range 4).map fun j => le b (o + 4 * j) 4
    some { seq := le b 4 4, active := le b 8 1, offs := [set 16, set 32] }

/-- A minimum-version record: SEQ and MINVER. -/
def State.minRec (s : State) (i : Nat) : Option (Nat × Nat) :=
  let b := s.flashBytes (0x2000 + 0x1000 * i) 16
  if le b 0 4 ≠ 0x4D565243 ∨ le b 12 4 ≠ crc32c (b.take 12) then none else some (le b 4 4, le b 8 4)

/-- The copy used of two: the valid one with the higher SEQ, and which it is. -/
def newer {α : Type} (seq : α → Nat) (a b : Option α) : Option (Nat × α) :=
  match a, b with
  | some x, some y => if seq x < seq y then some (1, y) else some (0, x)
  | some x, none => some (0, x)
  | none, some y => some (1, y)
  | none, none => none

def State.directory (s : State) : Option (Nat × DirCopy) := newer DirCopy.seq (s.dirCopy 0) (s.dirCopy 1)
def State.minRecord (s : State) : Option (Nat × Nat × Nat) := newer (·.1) (s.minRec 0) (s.minRec 1)

/-- The effective minimum version, by the record and the fuse floor. (DEDUCED, log 80) -/
def State.effMinver (s : State) : Nat :=
  match s.minRecord with
  | some (_, _, v) => max v s.fuseFloor
  | none => s.fuseFloor

/-- The copy an update overwrites: the one not in use. -/
def olderCopy {α : Type} (c : Option (Nat × α)) : Nat :=
  match c with
  | some (0, _) => 1
  | _ => 0

/-- Write a minimum-version record over the older copy. -/
def State.writeMinRec (s : State) (v : Nat) : State :=
  let seq := match s.minRecord with
    | some (_, q, _) => q + 1
    | none => 1
  let b := leBytes 4 0x4D565243 ++ leBytes 4 seq ++ leBytes 4 v
  let s1 := s.putFlash (0x2000 + 0x1000 * olderCopy s.minRecord) (b ++ leBytes 4 (crc32c b) ++ List.replicate 4080 0xFF)
  { s1 with aon := { s1.aon with wake := none } }

/-- Write a directory copy that names `active`, over the older copy. -/
def State.writeDirectory (s : State) (active : Nat) (offs : List (List Nat)) : State :=
  let seq := match s.directory with
    | some (_, d) => d.seq + 1
    | none => 1
  let b := leBytes 4 0x44495243 ++ leBytes 4 seq ++ [active] ++ List.replicate 7 0 ++ offs.flatMap fun l => l.flatMap (leBytes 4)
  let s1 := s.putFlash (0x1000 * olderCopy s.directory) (b ++ leBytes 4 (crc32c b))
  { s1 with aon := { s1.aon with wake := none } }

/-! ### Images (R395, R396) -/

/-- Limits of the target of an image type (Table AS-7): the largest body, and LOAD_OFF. -/
def inLimits (typ body load : Nat) : Bool :=
  match typ with
  | 1 => decide (body ≤ 156 * 1024 ∧ load = 0x1000)
  | 2 => decide (body ≤ 0x800000 ∧ load + body ≤ 0x1000000 - 0x1000)
  | _ => decide (body ≤ 0x10000)

def zeros (b : List Nat) (off n : Nat) : Bool := ((b.drop off).take n).all fun x => decide (x = 0)

/-- Check 1 of Table AS-6 on a header. -/
def headerOk (variant typ : Nat) (h : List Nat) : Bool :=
  let body := le h 0x10 4
  let text := le h 0x1C 4
  decide (le h 0 4 = 0x4C4D4148 ∧ le h 4 2 = 1 ∧ le h 6 1 = typ) && zeros h 0x761 31 && zeros h 0xC80 896 &&
    decide (0 < variant ∧ le h 7 1 / 2 ^ (variant - 1) % 2 = 1) && inLimits typ body (le h 0x14 4) &&
    decide (le h 0x18 4 < text ∧ text ≤ (body + 4095) / 4096 * 4096 ∧ text % 4096 = 0 ∧ le h 0x0C 4 ≤ le h 8 4)

def hdrVersion (h : List Nat) : Nat := le h 8 4
def hdrDigest (h : List Nat) : Nat := le h 0x20 64

/-- The slot whose digest is the key's. (DEDUCED, log 80) -/
def State.keySlotOf (s : State) (h : List Nat) : Option Nat :=
  let d := Config.shake256 32 ((h.drop 0x60).take 1793)
  (List.range 4).find? fun n => s.programmed n && decide (s.keyDigest n = d)

/-- The first failing check of an image, as the ROM codes it; `trusted` skips checks 1 to 4 (R408). -/
def State.imageCode (s : State) (typ minver : Nat) (h body : List Nat) (trusted : Bool) : Option Nat :=
  let late := if hdrVersion h < minver then some 0x25 else none
  if trusted then late
  else if headerOk s.variant typ h = false then some 0x21
  else
    match s.keySlotOf h with
    | none => some 0x23
    | some n =>
      if s.slotUsable n = false then some 0x24
      else if Config.falconVerify ((h.drop 0x60).take 1793) (h.take 0x780) ((h.drop 0x780).take 1280) = false ∨
          Config.shake256 64 body ≠ hdrDigest h then some 0x22
      else late

/-- The largest body that is copied. -/
def bodyCap : Nat := 0x800000

/-- An image at a flash address: its header and its body. -/
def State.readImage (s : State) (a : Nat) : List Nat × List Nat :=
  let h := s.flashBytes a 4096
  (h, s.flashBytes (a + 4096) (min bodyCap (le h 0x10 4)))

/-! ### Resets (R385, R386) -/

/-- Corrected and uncorrectable errors since cold reset (sensors 41 and 42 of Table MD-1). -/
def State.ceTotal (s : State) : Nat :=
  s.aon.ceRead + s.getF F.GDDR_CE_COUNT + sumNat ((List.range 10).map fun m => s.getF (F.RAS_ECC_CE_m_COUNT m))
def State.ueTotal (s : State) : Nat :=
  s.aon.ueRead + s.getF F.GDDR_UE_COUNT + sumNat ((List.range 10).map fun m => s.getF (F.RAS_ECC_UE_m_COUNT m))

/-- A register that the AON domain holds (R19, R411, R430, R458). -/
def aonReg (off : Nat) : Bool :=
  decide ((0x40000 ≤ off ∧ off < 0x40030) ∨ (0x41000 ≤ off ∧ off < 0x42000) ∨ (0x30010 ≤ off ∧ off < 0x3001C) ∨ off = 0x20044 ∨ off = 0x44038 ∨ off = 0x4403C)

/-- What a reset of every domain but AON leaves: the AON registers and what the board and the fuses hold. What the TAP
holds shows in DBG_SESSION_STATUS (R489). (DEDUCED, log 78) -/
def State.resetDomains (s : State) : State :=
  let dbg := s.rd 0x900004 &&& 0x60000000#32
  ({ State.reset with
      pending := s.pending, fresh := s.fresh, irqs := s.irqs, fuses := s.fuses, bootFuses := s.bootFuses, flash := s.flash, jtag := s.jtag,
      events := s.events.filter (fun e => e = .jtagAttach), aon := { s.aon with ceRead := s.ceTotal, ueRead := s.ueTotal },
      mgmt := { s.mgmt with upd := {} }, regs := s.regs.filter (fun (e : Nat × W32) => aonReg e.1),
      fab := { wire := s.fab.wire } } : State).wr 0x900004 dbg

/-- The capability registers, which last until the next cold reset, and the strap of REIN_CAP. -/
def State.keepGlb (s : State) (old : State) : State :=
  [0, 4, 8, 12, 0x20004].foldl (fun u i => u.wr i (old.rd i)) s

/-- The device is held in cold reset: the sticky bits and the wake record go. -/
def State.toReset (s : State) (wake : Bool) : State :=
  let s1 := s.resetDomains
  { s1 with phase := .coldReset, aon := { s1.aon with tried := [], retry := false, wake := if wake then s1.aon.wake else none } }

/-- The debug records go with a cold reset, and the TAP, the error counts and the fence report with them (R430,
R476, R480, R489, R497). -/
def State.forgetDebug (s : State) : State :=
  let s1 := ((s.setF F.TRUST_DBG_JTAG_COUNT 0).setF F.TRUST_DBG_PF_COUNT 0).wr 0x900004 0#32
  { s1 with jtag := {}, events := [], aon := { s1.aon with report := [], ceRead := 0, ueRead := 0 } }

/-- RESET_N goes low. It ends a thermal trip and deep sleep too. (DEDUCED, log 81) -/
def execColdReset (s : State) : Out := .next ((s.toReset false).forgetDebug)

/-- A rail other than VDD_AON leaves its good range. In deep sleep and after a trip the board removes the rails
and nothing follows. -/
def execRailFault (s : State) : Out :=
  if s.phase = .deepSleep ∨ s.phase = .tripped then .next s else .next ((s.toReset false).forgetDebug)

/-- PERST_N goes low: every domain but AON is reset, and booting starts again by the full path. While VDD_IO18 is
absent the pin is ignored. (DEDUCED, log 81) -/
def execPerst (s : State) : Out :=
  if s.phase = .deepSleep ∨ s.phase = .tripped then .next s else .next (s.toReset false)

/-- VDD_AON is lost: every AON register, the wake record and the endpoint's state go, and a trip ends. -/
def execVddAonLoss (s : State) : Out :=
  .next { State.reset with pending := s.pending, fresh := s.fresh, irqs := s.irqs, fuses := s.fuses, flash := s.flash,
                           fab := { wire := s.fab.wire } }

/-! ### Pins (R385, R406, R453, R454, R501) -/

/-- The rails and resets of the device are such that its pads are released. -/
def State.padsOn (s : State) : Bool := decide (s.phase = .up ∨ s.phase = .halted ∨ s.phase = .recovery)

/-- BOOT_CODE[7:0] and BOOT_ERR_N (true for high); `none` is the safe state, high impedance. (DEDUCED, log 51) -/
def State.pinBootCode (s : State) : Option Nat := if s.padsOn then some (s.getF F.ASSAY_BOOT_STATUS_CODE) else none
def State.pinBootErr (s : State) : Option Bool := if s.padsOn then some (decide (s.getF F.ASSAY_BOOT_STATUS_CODE < 0x10)) else none
/-- THERMTRIP_N and SLEEP_N, open drain: true where the pin is released. (DEDUCED, log 51) -/
def State.pinThermtrip (s : State) : Bool := decide (s.phase ≠ .tripped)
def State.pinSleep (s : State) : Bool := decide (s.phase ≠ .deepSleep)

/-! ### Halts and the two image sets (R398, R406) -/

/-- The device halts with a code: every domain that was released is back in reset. -/
def State.halt (s : State) (code : Nat) : State :=
  let s1 := { (s.resetDomains.keepGlb s) with phase := .halted }
  (s1.setF F.ASSAY_BOOT_STATUS_CODE code).setF F.ASSAY_BOOT_STATUS_STAGE 3

/-- The rank of a set's failure, lowest first. -/
def codeRank (c : Nat) : Nat := [0x30, 0x20, 0x21, 0x23, 0x24, 0x22, 0x25, 0x41, 0x40].idxOf c

/-- A set has failed: its code is recorded in the sticky bits and shown. -/
def State.setFailed (s : State) (set code : Nat) : State :=
  let s1 := s.setF (if set = 0 then F.ASSAY_BOOT_STATUS_CODE_A else F.ASSAY_BOOT_STATUS_CODE_B) code
  { s1 with aon := { s1.aon with tried := s1.aon.tried ++ [(set, code)] } }

/-- The code of the failure that ranks highest. -/
def worst (l : List (Nat × Nat)) : Nat := l.foldl (fun m e => if m = 0 ∨ codeRank m < codeRank e.2 then e.2 else m) 0

/-! ### Assay firmware: from stage 1 to DRT_READY (steps 7 to 13) -/

/-- What a boot carries along: the set, the flash offsets, the minimum version, and whether the wake path still
holds. -/
structure BootRun where
  set : Nat := 0
  offs : List Nat := []
  minver : Nat := 0
  wake : Bool := false
  digests : List Nat := []
  images : List Image := []
deriving DecidableEq, Repr

/-- Image `i` of the run (stage 1, Teamster microcode, vector microcode, DRT): header, body and digest as copied. -/
def State.runImage (s : State) (r : BootRun) (i : Nat) : List Nat × List Nat :=
  s.readImage (setBase r.set + r.offs.getD i 0)

/-- Check image `i`, of a type: the code of its failure, and the run after it. Where its digest is not the
recorded one, the wake path ends for the rest of the boot (R408). -/
def State.checkRun (s : State) (r : BootRun) (i typ : Nat) : Option Nat × BootRun × Bool :=
  let (h, b) := s.runImage r i
  let d := Config.shake256 64 (h ++ b)
  let hit : Bool := match s.aon.wake with
    | some w => r.wake && decide (w.digests[i]? = some d)
    | none => false
  let fell := r.wake && !hit
  let code := s.imageCode typ r.minver h b hit
  (code, { r with wake := hit, digests := r.digests ++ [d],
                  images := r.images ++ [{ digest := hdrDigest h, version := hdrVersion h, header := h, body := b }] }, fell)

def State.showFall (s : State) (fell : Bool) : State := if fell then s.setF F.ASSAY_BOOT_STATUS_FALLBACK 1 else s

/-- A pair is out of service. -/
def State.gddrDegraded (s : State) : Bool := (List.range 8).any fun p => !s.pairOk p

/-- Train the memory (R265): a channel that fails full training puts its pair out of service, and the others are ready. -/
def State.train (s : State) (b : Board) : State :=
  let s1 := (List.range 16).foldl (fun u c => u.setF (F.GDDR_CH_STATE_CH_c c) (if b.failed.contains c then 2 else 0)) s
  let s2 := (s1.setF F.GDDR_STATUS_CAPACITY b.capacity).setF F.GDDR_STATUS_TRAIN (if s1.gddrDegraded then 4 else 3)
  { s2 with aon := { s2.aon with trained := true } }

/-- No channel pair has completed training. -/
def State.noMemory (s : State) : Bool := (List.range 8).all fun p => !s.pairOk p

/-- A microcode or DRT image has failed under the firmware: the firmware writes the set to ASSAY_RETRY, or both sets
have failed and the device halts. -/
def State.firmwareFail (s : State) (set code sub : Nat) : State :=
  let s1 := (s.setFailed set code).setF F.ASSAY_BOOT_DETAIL_SUBCODE sub
  if 2 ≤ s1.aon.tried.length then s1.halt (worst s1.aon.tried)
  else
    let s2 := (s1.setF F.ASSAY_RETRY_SET set).resetDomains.keepGlb s1
    { s2 with aon := { s2.aon with retry := true } }

def hostMem : Nat := 0x018000000000
/-- The boot information block (Table AS-9). -/
def bootInfo : Nat := 0x018000FFF000

/-- Steps 11 to 13, once the DRT is accepted: the DRT copied and its text locked, the flash acted on, the host
cores started, DRT_READY. -/
def State.bringUp (s : State) (b : Board) (r : BootRun) (h body : List Nat) (throughout fullPath : Bool) : State :=
  let load := le h 0x14 4
  let (h1, _) := s.runImage r 0
  let setv := le h1 0x0C 4
  let old := match s.minRecord with
    | some (_, _, v) => v
    | none => 0
  let s1 := if fullPath ∧ old < setv then s.writeMinRec setv else s
  if b.protect = false then s1.halt 0x31
  else
    let images := (r.images.take 3) ++ (r.images.drop 3).map fun (im : Image) => { im with text := hostMem + load, len := le h 0x1C 4, body := [] }
    let harts := (List.range 16).map fun i => (hostMem + load + le h 0x18 4, i, bootInfo)
    let s2 := { (s1.stBytes (hostMem + load) body) with
      assay := { s1.assay with locked := true, images := images }, hcore := { s1.hcore with harts := harts } }
    let slot := (s.keySlotOf h).getD 0
    let s3 := ((s2.setF F.ASSAY_VER_DRT_VERSION (hdrVersion h)).setF F.ASSAY_BOOT_DETAIL_SLOT_DRT slot).setF F.ASSAY_BOOT_TIME_US b.us
    let s4 := (s3.setF F.ASSAY_BOOT_STATUS_STAGE 2).setF F.ASSAY_BOOT_STATUS_CODE 7
    let ver (i : Nat) : Nat := ((images[i]?).getD {}).version
    let info := leBytes 4 (s4.rd 0x40000).toNat ++ leBytes 4 (ver 0) ++ leBytes 4 (ver 3) ++ leBytes 4 (ver 1) ++ leBytes 4 r.minver ++
      [r.set, if throughout then 1 else 0, b.capacity] ++ List.replicate 41 0
    let s5 := ((s4.stBytes bootInfo info).setF F.HQE_STATUS_DRT_READY 1).setF F.ASSAY_BOOT_STATUS_CODE 8
    let s6 := (s5.setRein fun x => { x with now := b.now, sched := s5.schedF }).retune b.now |>.showAllowed
    let wake : WakeRec := { set := r.set, offs := r.offs, digests := r.digests }
    { s6.drawNonce.showHallmark with phase := .up, aon := { s6.aon with wake := some wake } }

/-- Step 7 (R399): the CDI of the stage 1 with a BODY_DIGEST is in its page, reads of the UDS are blocked, and the
protection map is locked. The ROM's work area holds nothing else that this model keeps. -/
def State.handOver (s : State) (digest : Nat) : State :=
  { s with assay := { s.assay with
      cdi := Config.shake256 64 (s.fuseBytes 0xA0 64 ++ leBytes 64 digest), udsBlocked := true, mapLocked := true } }

/-- Whether stage 1 may read, write and execute at an Assay address (Table AS-8). -/
def State.stage1May (s : State) (a : Nat) : Bool × Bool × Bool :=
  let text := 0x10011000 + le ((s.assay.images[0]?).getD ({} : Image)).header 0x1C 4
  if inRng 0x10000000 0x1000FFFF a then (true, true, false)
  else if 0x10010000 ≤ a ∧ a < text then (true, false, true)
  else if text ≤ a ∧ a < 0x1003F000 then (true, true, false)
  else if inRng 0x1003F000 0x1003FFFF a then (true, false, false)
  else if inRng 0x80000000 0xFFFFFFFF a then (true, true, false)
  else (false, false, false)

/-- The device physical address behind an Assay address in the window (R25). -/
def State.windowAddr (s : State) (a : Nat) : Option Nat := if inRng 0x80000000 0xFFFFFFFF a then some (s.assay.winBase + (a - 0x80000000)) else none

/-- An access of stage 1 that the map denies is not performed, and RAS counts it; no command of the table is one. -/
def State.stage1Denied (s : State) : State := s.addF F.RAS_ASSAY_AF_COUNT 1

/-- Steps 7 to 13 with stage 1 accepted. -/
def State.firmware (s : State) (b : Board) (r : BootRun) : State :=
  let (h0, _) := s.runImage r 0
  let s1 := ((((s.setF F.ASSAY_BOOT_STATUS_STAGE 1).setF F.ASSAY_BOOT_STATUS_SET r.set).setF F.ASSAY_BOOT_STATUS_CODE 4).setF
    F.ASSAY_VER_S1_VERSION (hdrVersion h0)).setF F.ASSAY_BOOT_DETAIL_SLOT_S1 ((s.keySlotOf h0).getD 0)
  let s2 := ({ s1 with assay := { s1.assay with images := r.images } }.handOver (hdrDigest h0)).train b
  if s2.noMemory then s2.halt 0x50
  else
    let s3 := s2.setF F.ASSAY_BOOT_STATUS_CODE 5
    match s3.checkRun r 1 3 with
    | (some c, _, f) => (s3.showFall f).firmwareFail r.set 0x41 c
    | (none, r1, f1) =>
      match (s3.showFall f1).checkRun r1 2 4 with
      | (some c, _, f) => ((s3.showFall f1).showFall f).firmwareFail r.set 0x41 c
      | (none, r2, f2) =>
        let s4 := ((s3.showFall f1).showFall f2).setF F.ASSAY_BOOT_STATUS_CODE 6
        match s4.checkRun r2 3 2 with
        | (some c, _, f) => (s4.showFall f).firmwareFail r.set 0x40 c
        | (none, r3, f3) =>
          let (h, body) := s.runImage r 3
          (s4.showFall f3).bringUp b r3 h body r3.wake (!r.wake)

/-! ### Assay ROM (steps 2 to 6) -/

/-- Step 6: stage 1 of the sets in turn, while one is left that has not been tried. -/
def State.stage1 (s : State) (b : Board) (d : DirCopy) (minver : Nat) : List Nat → State
  | [] => s.halt (worst s.aon.tried)
  | set :: rest =>
    let first := s.aon.tried = []
    let wk : Option WakeRec := if first then s.aon.wake.filter (fun (w : WakeRec) => w.set = set) else none
    let offs := match wk with
      | some w => w.offs
      | none => d.offs.getD set []
    let r : BootRun := { set := set, offs := offs, minver := minver, wake := wk.isSome }
    let s1 := s.setF F.ASSAY_BOOT_STATUS_WAKE (if wk.isSome then 1 else 0)
    if set ∈ b.slow then (s1.setFailed set 0x30).stage1 b d minver rest
    else
      match s1.checkRun r 0 1 with
      | (some c, _, f) => ((s1.showFall f).setFailed set c).stage1 b d minver rest
      | (none, r1, f) => (s1.showFall f).firmware b r1

/-- A failure before any image is read. On a retry it is the failure of the set not yet tried (R398). -/
def State.flashFail (s : State) (code : Nat) : State :=
  match s.aon.tried with
  | [] => s.halt code
  | (set, _) :: _ =>
    let s1 := s.setFailed (1 - set) code
    s1.halt (worst s1.aon.tried)

/-- Steps 4 to 6, where a retry starts too. -/
def State.romFlash (s : State) (b : Board) : State :=
  let s1 := s.setF F.ASSAY_BOOT_STATUS_CODE 2
  if b.flashOk = false then s1.flashFail 0x30
  else
    match s1.directory with
    | none => s1.flashFail 0x20
    | some (_, d) =>
      let minver := s1.effMinver
      let s2 := ((s1.setF F.ASSAY_MINVER_MINVER minver).setF F.ASSAY_BOOT_STATUS_MINVER_REC_BAD (if s1.minRecord = none then 1 else 0)).setF
        F.ASSAY_BOOT_STATUS_CODE 3
      let first := match s2.aon.wake with
        | some w => w.set
        | none => d.active
      let order := [first, 1 - first].filter fun t => s2.aon.tried.all fun e => e.1 ≠ t
      s2.stage1 b d minver order

/-- Straps are sampled, the fuses are read, and the boot registers and the sticky bits begin afresh (R398). -/
def State.strap (s : State) (b : Board) : State :=
  let s1 := { s with regs := tclear 0x40000 0x40030 s.regs, mgmt := { s.mgmt with mode := b.mgmtMode, address := b.mgmtAddr % 4 } }
  let s2 := if tget nat0 s.fuses 0x8C = 0 then { s1 with fuses := b.fuses.foldl (fun t e => tset nat0 t e.1 (e.2 % 256)) s1.fuses } else s1
  let s3 := { s2 with bootFuses := s2.fuses, aon := { s2.aon with tried := [] }, flash := b.flash.foldl (fun t (e : Nat × Nat) => tset flash0 t e.1 (BitVec.ofNat 8 e.2)) s2.flash }
  (s3.setF F.REIN_CAP_COOL_B (if b.coolB then 1 else 0)).setF F.ASSAY_BOOT_STATUS_RECOVERY (if b.recovN then 0 else 1)

/-- The fence report kept in AON stands in the log after the restart (R469). -/
def State.putAonReport (s : State) : State :=
  if s.aon.report = [] then s
  else
    let s1 := (numbered 0 s.aon.report).foldl (fun u (e : Nat × W32) => u.wr (0x801000 + 4 * e.1) e.2) s
    (s1.setF F.RAS_LOG_STATUS_NEXT 1).setF F.RAS_LOG_STATUS_TOTAL 1

/-- Step 2: the fuses have been read. -/
def State.loadFuses (s : State) (b : Board) : State :=
  let s1 := (numbered 0 (variantRegs s.variant)).foldl (fun u (e : Nat × Nat) => u.wr (4 * e.1) (BitVec.ofNat 32 e.2)) s
  ((s1.putAonReport.mapCores.markPorts.setF F.ASSAY_KEYSLOT_PROGRAMMED (s.keySlots % 16)).setF F.ASSAY_KEYSLOT_REVOKED (s.keySlots / 16)).setF
    F.ASSAY_BOOT_STATUS_FUSE_CE (if b.fuseCe then 1 else 0)

/-- Rails good and RESET_N high for 2 ms: t0, and the boot by its steps. (DESIGN CHOICE, log 79) (DEDUCED, log 80) -/
def execBootStart (b : Board) (s : State) : Out :=
  if s.phase ≠ .coldReset ∨ s.aon.retry then .refused .cannotOccur
  else
    let s1 := (s.strap b).setF F.ASSAY_BOOT_STATUS_CODE 1
    if b.fuseUe ∨ s1.fusesBad then .next (s1.halt 0x10)
    else
      let s2 := s1.loadFuses b
      if b.recovN then .next (s2.romFlash b)
      else
        let s3 := s2.setF F.ASSAY_BOOT_STATUS_CODE 0x0E
        .next { s3 with phase := .recovery, aon := { s3.aon with wake := none } }

/-- The firmware's write of ASSAY_RETRY: every domain but AON is reset, and the ROM starts again at step 4.
(DEDUCED, log 80) -/
def execAssayRetry (b : Board) (s : State) : Out :=
  if s.phase ≠ .coldReset ∨ s.aon.retry = false then .refused .cannotOccur
  else
    let s1 := { s with aon := { s.aon with retry := false } }
    .next (s1.mapCores.markPorts.romFlash b)

/-! ### Recovery (R407) -/

/-- In recovery the ROM awaits an image. -/
def State.awaiting (s : State) : Bool := decide (s.phase = .recovery ∧ s.getF F.ASSAY_RECOV_STATUS_STATE ≠ 3 ∧ s.getF F.ASSAY_RECOV_STATUS_STATE ≠ 4)

/-- Only the PF reaches the block then. (DEDUCED, log 81) -/
def recovWrite (port : Port) (s : State) (f : State → State) : Out :=
  if port ≠ .pf then .next (s.denied port) else .next (if s.awaiting then f s else s)

def win0 : Nat → Byte := fun _ => 0#8

/-- Put bytes into the stage 1 window. -/
def State.putWindow (s : State) (off : Nat) (b : List Nat) : State :=
  { s with assay := { s.assay with window := (numbered off b).foldl (fun t (e : Nat × Nat) => tset win0 t e.1 (BitVec.ofNat 8 e.2)) s.assay.window } }

/-- The staged page is copied to page `page` of the window. -/
def execLoadPage (port : Port) (page : Nat) (s : State) : Out :=
  recovWrite port s fun s =>
    if 40 ≤ page then s
    else
      let b := (List.range 1024).flatMap fun i => leBytes 4 (s.rd (0x41000 + 4 * i)).toNat
      (((s.putWindow (4096 * page) b).setF F.ASSAY_RECOV_STATUS_STATE 0).setF F.ASSAY_RECOV_STATUS_REASON 0).setF F.ASSAY_BOOT_STATUS_CODE 0x0E

/-- Check the window and run it, or reject it. -/
def State.verifyWindow (s : State) : State :=
  let w (a n : Nat) : List Nat := (List.range n).map fun i => (tget win0 s.assay.window (a + i)).toNat
  let h := w 0 4096
  let body := w 4096 (min (156 * 1024) (le h 0x10 4))
  let s0 := (s.setF F.ASSAY_MINVER_MINVER s.effMinver).setF F.ASSAY_BOOT_STATUS_MINVER_REC_BAD (if s.minRecord = none then 1 else 0)
  match s0.imageCode 1 s.effMinver h body false with
  | some c => ((s0.setF F.ASSAY_RECOV_STATUS_STATE 2).setF F.ASSAY_RECOV_STATUS_REASON c).setF F.ASSAY_BOOT_STATUS_CODE c
  | none =>
    let s1 := { s0 with assay := { s0.assay with
      images := [{ digest := hdrDigest h, version := hdrVersion h, header := h, body := body }] } }.handOver (hdrDigest h)
    let s2 := ((s1.setF F.ASSAY_RECOV_STATUS_STATE 3).setF F.ASSAY_RECOV_STATUS_REASON 0).setF F.ASSAY_BOOT_STATUS_CODE 0x0E
    ((s2.setF F.ASSAY_BOOT_STATUS_STAGE 1).setF F.ASSAY_VER_S1_VERSION (hdrVersion h)).setF F.ASSAY_BOOT_DETAIL_SLOT_S1 ((s.keySlotOf h).getD 0)

def execRecovVerify (port : Port) (s : State) : Out := recovWrite port s State.verifyWindow

/-! ### Host-core memory and its cache (R404) -/

/-- Two ranges meet. -/
def meets (a n b m : Nat) : Bool := decide (a < b + m ∧ b < a + n ∧ 0 < n ∧ 0 < m)

/-- The live area of R486 in bytes from the start of host-core memory. -/
def State.liveArea (s : State) : Nat × Nat := (s.getF F.HOSTCORE_LIVE_BASE_BASE * 0x10000, s.getF F.HOSTCORE_LIVE_BASE_SIZE * 0x10000)

/-- The locked text of the running DRT, and of a new one. -/
def State.texts (s : State) : List (Nat × Nat) :=
  (s.assay.images.filter fun (i : Image) => decide (0 < i.len)).map (fun i => (i.text, i.len)) ++
    (match s.hcore.next with
     | some i => [(i.text, i.len)]
     | none => [])

def State.carveOk (s : State) (v : W32) : Bool :=
  let size := newF v F.HOSTCORE_MEM_CFG_L2_SIZE
  let base := newF v F.HOSTCORE_MEM_CFG_L2_BASE
  let a := hostMem + base * 0x100000
  let n := size * 0x100000
  decide (size ≤ 8 ∧ base + size ≤ 15) && s.texts.all (fun t => !meets a n t.1 t.2) &&
    !meets a n (hostMem + s.liveArea.1) s.liveArea.2

/-- A write of HOSTCORE_MEM_CFG (R404). (DEDUCED, log 82) -/
def execHostcoreMemCfgWrite (port : Port) (w : W32) (s : State) : Out :=
  hostWrite port s fun s =>
    if s.getF F.HOSTCORE_MEM_STATUS_BUSY = 1 ∨ s.carveOk w = false then s.raise F.HOSTCORE_MEM_STATUS_WRITE_REJECT
    else { s.setF F.HOSTCORE_MEM_STATUS_BUSY 1 with hcore := { s.hcore with carve := some (w &&& 0x000F000F#32) } }

/-- A cache operation begins: 1 FLUSH, 2 INVALIDATE, 3 FLUSH_INV. (DEDUCED, log 82) -/
def cacheOp (op : Nat) (port : Port) (s : State) : Out :=
  hostWrite port s fun s =>
    if s.getF F.HOSTCORE_MEM_STATUS_BUSY = 1 then s.raise F.HOSTCORE_MEM_STATUS_WRITE_REJECT
    else { s.setF F.HOSTCORE_MEM_STATUS_BUSY 1 with hcore := { s.hcore with op := op } }

def execFlush (port : Port) (s : State) : Out := cacheOp 1 port s
def execInvalidate (port : Port) (s : State) : Out := cacheOp 2 port s
def execFlushInv (port : Port) (s : State) : Out := cacheOp 3 port s

/-- Every dirty line is written back. -/
def State.writeBack (s : State) : State :=
  let dirty := s.hcore.lines.filter fun (l : Nat × List Nat × Bool) => l.2.2
  let s1 := dirty.foldl (fun u l => u.stBytes l.1 l.2.1) s
  { s1 with hcore := { s1.hcore with lines := s1.hcore.lines.map fun l => (l.1, l.2.1, false) } }

def State.dropLines (s : State) : State := { s with hcore := { s.hcore with lines := [] } }

/-- The carve-out change takes effect: what is carved is lost, and what is returned reads as zero. -/
def State.carveApply (s : State) (v : W32) : State :=
  let s1 := s.writeBack.dropLines
  let range (x : W32) : Nat × Nat := (hostMem + newF x F.HOSTCORE_MEM_CFG_L2_BASE * 0x100000, newF x F.HOSTCORE_MEM_CFG_L2_SIZE * 0x100000)
  let o := range (s.rd 0xA00000)
  let n := range v
  ((s1.zeroMem o.1 (o.1 + o.2)).zeroMem n.1 (n.1 + n.2)).wr 0xA00000 v

/-- A cache command of the host-core cluster completes (R404). (DEDUCED, log 82) -/
def execCacheOpComplete (s : State) : Out :=
  if s.phase ≠ .up then .refused .cannotOccur
  else if s.getF F.HOSTCORE_MEM_STATUS_BUSY ≠ 1 then .refused .cannotOccur
  else
    let s1 := match s.hcore.carve with
      | some v => s.carveApply v
      | none =>
        let w := if s.hcore.op = 1 ∨ s.hcore.op = 3 then s.writeBack else s
        if 2 ≤ s.hcore.op then w.dropLines else w
    let s2 := s1.setF F.HOSTCORE_MEM_STATUS_BUSY 0
    .next { s2 with hcore := { s2.hcore with carve := none, op := 0 } }

end Sys2Proof.Machine
end

