-- ==== Sys2Proof/Machine/Reset.lean ====
section
/-!
DEFINITION. Closing the fence of any domain, the device reset, deep sleep and waking, the commands of RAS_CMD at
the snapshot, what the patrol scrub of the on-chip memories finds, and the audit of each edge (R454, R455, R459,
R460, R467 to R472, R477, R525).
-/
namespace Sys2Proof.Machine

/-! ### Every domain (Table RL-2) -/

/-- KV pages that contexts hold. -/
def State.kvHeld (s : State) : Nat :=
  sumNat ((List.range 8).flatMap fun p => (List.range (s.getF (F.KVA_CTX_RANGE_COUNT p))).map fun i => (s.kvRead p (s.kvFirst p + i)).npages)

/-- What the device held, as its fence report counts it. -/
def State.deviceHeld (s : State) : Reclaim :=
  { queue := sumNat (s.cores.flatMap fun e => e.2.queues.map fun q => q.2.els.length), sems := sumNat (s.cores.map fun e => sumTbl e.2.sems),
    signals := s.sigs.length, fabCredits := s.fabHeld, kvPages := s.kvHeld, jobs := s.jobs.length,
    descs := sumNat (s.rings.map fun e => e.2.taken.length) }

/-- The device fence closes every fence: work that has not completed ends ABORTED with FENCE, and every ring stops
taking descriptors. The device's own report is kept in AON. -/
def State.closeDevice (s : State) (cause : Nat) : State :=
  let x := s.deviceHeld
  let s1 := (s.rings.map (·.1)).foldl (fun u r => u.abortRing r rFence) s
  let s2 := (List.range 8).foldl (fun u t => u.closeTeam t cause) s1
  let s3 := (List.range 4).foldl (fun u g => if u.domainPresent 3 g then u.closeGroup g cause else u) s2
  let s4 := (List.range 4).foldl (fun u c => if (u.fence 4 c).closed then u else u.shut 4 c cause {}) s3
  let s5 := (List.range 8).foldl (fun u p => if (u.part p).live then u.closePart p cause else u) s4
  let s6 := s5.fenceReport 7 0 cause false x
  { s6 with aon := { s6.aon with report := s5.reportWords 7 0 cause false x } }

/-- A device reset: boot starts again from the ROM by the full path. -/
def State.deviceReset (s : State) : State := (s.closeDevice causeDevice).toReset false

/-- Close the fence of a domain. -/
def State.closeDomain (s : State) (dtype inst cause : Nat) : State :=
  match dtype with
  | 0 => s.closeCore inst cause
  | 1 => s.closeTeam inst cause
  | 2 => s.closeSlice inst cause
  | 3 => if s.domainPresent 3 inst then s.closeGroup inst cause else s
  | 4 => if inst < 4 ∧ (s.fence 4 inst).closed = false then s.shut 4 inst cause {} else s
  | 5 => if (s.part inst).live then s.closePart inst cause else s
  | 7 => s.deviceReset
  | _ => s

/-- Apply a RAS_CMD at the snapshot (R477). -/
def State.rasApply (s : State) (op dtype inst : Nat) : State :=
  match s.rasRefusal op dtype inst with
  | some r => (s.rasResult 2 r).raise F.RAS_STATUS_CMD_REJECT
  | none =>
    let s1 := s.rasResult 1 0
    match op with
    | 1 => s1.closeDomain dtype inst causeReset
    | 2 => s1.retireCore inst
    | 3 => (match s1.slotOf inst with
      | some k => s1.modCore k fun c => { c with guard := { c.guard with inject := true } }
      | none => s1)
    | _ => s1

/-! ### Deep sleep (R454, R455) -/

/-- An accepted sleep request. The wake record stands as the boot and what has cleared it since have left it.
(DEDUCED, log 81) -/
def State.sleep (s : State) : State :=
  let s1 := (s.closeDevice causeSleep).resetDomains
  { s1 with phase := .deepSleep }

/-- The ports that may ask for deep sleep. -/
def powerPort : Port → Bool
  | .vf _ => false
  | _ => true

/-- A write of 1 to REIN_SLEEP.REQ. -/
def execReinSleep (port : Port) (s : State) : Out :=
  if s.phase ≠ .up then unreached s
  else if powerPort port = false then .next (s.denied port)
  else if s.syncState ≠ 0 then .next (s.raise F.REIN_STATUS_WRITE_REJECT)
  else .next s.sleep

/-- The device wakes: SLEEP_N is released, the board restores the rails, and a boot follows. -/
def State.wakeUp (s : State) : State := if s.phase = .deepSleep then { s with phase := .coldReset, rein := {} } else s

def execWakeN (s : State) : Out := .next s.wakeUp

/-- REIN_WAKE_TIMER expires. -/
def execWakeTimer (s : State) : Out :=
  if s.getF F.REIN_WAKE_TIMER_SECONDS = 0 then .refused .cannotOccur else .next s.wakeUp

/-! ### Scrubs of the on-chip memories (R459, R460, R525) -/

/-- A job's fabric flows or credits are corrupt, for `reason`: the job is faulted as R378 states. -/
def State.flowsBad (s : State) (reason now : Nat) : State :=
  if s.jobState ≠ stFormed then s
  else
    let s1 := s.sendAll s.others tyJfault (s.tick % 2 ^ 32 * 2 ^ 32) (beBytes 8 0)
    (s1.fabRecord oFaulted reason s.tick 0#64).closeJob stFaulted oFaulted reason now

/-- The action on an uncorrectable error in control state (Table RL-8); 6 stands for a job's fabric flows. -/
def State.controlBad (s : State) (dom inst now : Nat) : State :=
  if dom = 6 then s.flowsBad rUncorrectable now else s.closeDomain dom inst causeFailure

/-- The frame that a raw port's line buffers hold is discarded. -/
def State.rawDiscard (s : State) (p : Nat) : State :=
  match (s.rawPort p).frame with
  | none => s
  | some f =>
    let s1 := s.setRawPort p { s.rawPort p with frame := some { f with fb := none } }
    match f.ctx, f.fb with
    | some n, some i =>
      let s2 := { s1 with vis := { s1.vis with frames := s1.vis.frames.filter fun g => ¬ (g.ctx = n ∧ g.num = f.num) } }
      (s2.modSctx n fun x => { x with held := x.held.filter (· ≠ i) }).dropRecord
        { ctx := n, num := f.num, width := f.w, height := f.h, flags := 0 } true false
    | _, _ => s1

/-- The access unit that a context's reorder buffer collects is discarded. -/
def State.unitDiscard (s : State) (n : Nat) : State :=
  match (s.sctx n).units with
  | [] => s
  | u :: _ => s.discardUnit n u u.hi 0

/-- What an uncorrectable error in memory `m` of Table RL-1 leads to; for class 5 the domain that holds the state,
for class 6 whether the line is dirty, for class 7 whether it is a raw port's (else a context's) are in `dom`. -/
def State.scrubBad (s : State) (m unit addr dom now : Nat) : State :=
  match m with
  | 0 => { s with ue := s.ue ++ [(storeBase unit + addr / 8 * 8, 8)] }
  | 2 => { s with ue := s.ue ++ [(poolBase unit + addr / 8 * 8, 8)] }
  | 5 => s.controlBad dom unit now
  | 6 => if dom = 0 then s else s.closeDomain 4 unit causeFailure
  | 7 => if dom = 0 then s.rawDiscard unit else s.unitDiscard unit
  | 8 => s.deviceReset
  | _ => (match s.slotOf unit with
    | some k => s.modCore k fun c => { c with bad := c.bad ++ [(m, addr)] }
    | none => s)

/-- The patrol scrub of memory `m` reads the word at `addr` of a unit: one wrong bit is corrected and written back;
more are not correctable. -/
def execSramScrub (m unit addr flips dom now : Nat) (s : State) : Out :=
  if s.phase ≠ .up then .refused .cannotOccur
  else if 10 ≤ m then .refused .noSuchUnit
  else if flips = 0 then .next s
  else if flips = 1 ∨ (m = 6 ∧ dom = 0) then .next (s.addF (F.RAS_ECC_CE_m_COUNT m) 1)
  else .next ((s.rasUe m unit addr).scrubBad m unit addr dom now)

/-! ### The audit (R470 to R472) -/

/-- A failed identity: its code, its instance, and the domain that holds it. -/
structure AuditFail where
  code : Nat
  inst : Nat
  dtype : Nat
  dom : Nat
deriving DecidableEq, Repr

/-- The identities of a core's queues: each used space within its total. -/
def State.auditCore (s : State) (n : Nat) : List AuditFail :=
  match s.slotOf n with
  | none => []
  | some k =>
    let c := s.core k
    let q := c.queues.any fun e =>
      if e.2.zc then decide (e.2.ring < sumLens e.2.els) else decide (e.2.depth < e.2.els.length)
    let m := [0, 1, 2, 3, 4].any fun i => decide (c.cqDepth i < (c.cq i).length)
    let sem := c.sems.any fun e => decide (65535 < e.2)
    (if q then [⟨3, n, 0, n⟩] else []) ++ (if m then [⟨4, n, 0, n⟩] else []) ++ (if sem then [⟨5, n, 0, n⟩] else [])

/-- The identities of a partition: KV pages of each size code, pushed = free + held; and its Pool share. -/
def State.auditPart (s : State) (p : Nat) : List AuditFail :=
  if (s.part p).live = false then []
  else
    let pages := (List.range 9).filter fun z =>
      decide (tget nat0 s.kvPushes (16 * p + z) ≠ (s.kvFrames p z).length + tget nat0 s.kvTaken (16 * p + z))
    pages.map (fun z => ⟨6, 16 * p + z, 5, p⟩) ++ (if s.shareSize p < s.shareUsed p then [⟨7, p, 5, p⟩] else [])

/-- The identity of a flow of the job: no more credits spent than PER_PEER. -/
def State.auditFlow (s : State) (p : Nat) : List AuditFail :=
  if s.jobState = stFormed ∧ s.getF F.FAB_CREDITS_PER_PEER < (s.flow p).spent then [⟨2, p, 6, p⟩] else []

/-- Descriptors of a ring that have no final record. -/
def State.ringOpen (s : State) (r : Nat) : Nat :=
  (s.ring r).taken.length + (s.ring r).dropped.length + (s.jobs.filter fun e => e.2.ring == r).length

/-- The identity of a ring: PENDING counts what has no final record. -/
def State.auditRing (s : State) (r : Nat) : List AuditFail :=
  if s.getF (rPENDING r) = s.ringOpen r then [] else [⟨8, r, 5, s.rPART r⟩]

/-- The identities of Table RL-4 that do not hold (R470). (DEDUCED, log 47) -/
def State.auditFails (s : State) : List AuditFail :=
  (List.range 64).flatMap s.auditCore ++ (List.range 8).flatMap s.auditPart ++ (s.rings.map (·.1)).flatMap s.auditRing ++
    (s.fab.flows.map (·.1)).flatMap s.auditFlow ++
    (if 16384 < s.descHeld then [⟨8, 16384, 7, 0⟩] else [])

/-- Every job that held the instance ends FAULTED with AUDIT. -/
def State.markAudit (s : State) (a : AuditFail) : State :=
  { s with jobs := s.jobs.map fun e =>
      let hit := (a.dtype == 0 && decide (a.dom ∈ e.2.cores)) || (a.dtype == 5 && e.2.part == a.dom)
      (e.1, if hit ∧ e.2.firstFault = none then { e.2 with firstFault := some { reason := rAudit } } else e.2) }

/-- The fence restores the identity: the count of KV pages or of a ring's descriptors is that of what is there.
(DEDUCED, log 47) -/
def State.settle (s : State) (a : AuditFail) : State :=
  if a.code = 6 then
    { s with kvPushes := tset nat0 s.kvPushes a.inst ((s.kvFrames (a.inst / 16) (a.inst % 16)).length + tget nat0 s.kvTaken a.inst) }
  else if a.code = 8 then s.setF (rPENDING a.inst) (s.ringOpen a.inst)
  else s

/-- A failed identity acts: its domain is fenced, its jobs fault, RAS_AUDIT_LAST names it (R472). The fabric's is
the job's (6), and the descriptor buffer's the device's (Table RL-8). (DEDUCED, log 46) -/
def State.auditOne (now : Nat) (s : State) (a : AuditFail) : State :=
  let s1 := ((((s.markAudit a).raise F.RAS_STATUS_AUDIT_FAIL).setF F.RAS_AUDIT_LAST_RESOURCE a.code).setF
    F.RAS_AUDIT_LAST_INSTANCE a.inst).addF F.RAS_AUDIT_COUNT_COUNT 1
  let s2 := s1.setF F.RAS_AUDIT_LAST_UE (if s.ue = [] then 0 else 1)
  match a.dtype with
  | 0 => s2.closeCore a.dom causeAudit
  | 5 => (s2.closePart a.dom causeAudit).settle a
  | 6 => s2.flowsBad rAudit now
  | _ => s2.deviceReset

def State.audit (s : State) (now : Nat) : State := s.auditFails.foldl (fun u a => if u.phase = .up then u.auditOne now a else u) s

end Sys2Proof.Machine
end

