-- ==== Sys2Proof/Machine/Trust.lean ====
section
/-!
DEFINITION. The Assay mailbox, partitions, bundle imports, Hallmark requests and fuse operations (R392, R413 to
R420, R426 to R431), and SPDM, IDE and TDISP (R421 to R425). What a tick edge applies stands here as operations of
its own; Machine/TickEdge.lean calls them.
-/
namespace Sys2Proof.Machine

/-! ### Requests (R415, R416) -/

/-- Bytes of MB_REQ. -/
def State.mbBytes (s : State) (a n : Nat) : List Nat :=
  (List.range n).map fun i => (s.rd (0x42000 + (a + i) / 4 * 4)).toNat / 256 ^ ((a + i) % 4) % 256

/-- The status of the request: 1 BUSY, 2 DONE, 3 REFUSED with its reason; the response carries SEQ and, where the spec
gives no result word, a free one. -/
def State.mbStatus (s : State) (st reason : Nat) : State := (s.setF F.MB_STATUS_STATE st).setF F.MB_STATUS_REASON reason

/-- A mailbox operation is answered: MB_STATUS by its reason, result words free (R415). (DEDUCED, log 83) -/
def State.mbReply (s : State) (reason : Nat) : State :=
  let s1 := (s.wr 0x43000 (BitVec.ofNat 32 (leNat (s.mbBytes 4 4)))).wr 0x43004 (BitVec.ofNat 32 s.free)
  s1.used1.mbStatus (if reason = 0 then 2 else 3) reason

def zeroBytes (b : List Nat) : Bool := b.all fun x => decide (x = 0)

/-- The signed message and its check (R415, R392): the slot is usable and not the one concerned. (DEDUCED, log 84) -/
def State.signedOk (s : State) (len : Nat) (about : Option Nat) : Bool :=
  let slot := (s.mbBytes 1 1).getD 0 0
  let nonce := (List.range 8).flatMap fun i => leBytes 4 (s.getF (F.MB_NONCE_NONCE i))
  s.slotUsable slot && decide (some slot ≠ about) &&
    Config.falconVerifyDigest (s.keyDigest slot) (s.mbBytes 0 (0x40 + len) ++ nonce ++ s.serial) (s.mbBytes (0x40 + len) 1280)

/-- A write of MB_CTRL.GO with the request of operation `op` in MB_REQ, whose arguments take `len` bytes. `shape` judges
the arguments, `range` the addresses; a refusal shows at once, and `act` does the rest. (DESIGN CHOICE, log 9)
(DESIGN CHOICE, log 9) (DEDUCED, log 83) -/
def mailbox (op len : Nat) (signed : Bool) (port : Port) (s : State) (shape range : List Nat → Bool) (act : State → List Nat → State) : Out :=
  if s.phase ≠ .up then unreached s
  else if portHost port = false then .next (s.denied port)
  else if (s.mbBytes 0 1).getD 0 0 ≠ op then .refused .otherInstruction
  else if s.getF F.MB_STATUS_STATE = 1 then .next s
  else
    let a := s.mbBytes 0x40 len
    let head := leNat (s.mbBytes 2 2) = len ∧ zeroBytes (s.mbBytes 8 56) = true ∧ (signed = true ∨ s.mbBytes 1 1 = [0])
    let about := if op = 0x32 then none else a[0]?
    let t := if signed then s.drawNonce else s
    if ¬ head ∨ shape a = false then .next (t.mbReply rIllegalShape)
    else if range a = false then .next (t.mbReply rLengthBounds)
    else if signed && !s.signedOk len about then .next (t.mbReply rPermission)
    else .next (act t a)

/-- The operation waits for the snapshot. -/
def State.mbLatch (s : State) (op : Nat) (a : List Nat) : State := (s.mbStatus 1 0).latch (.mbox op a)

def noRange (_ : List Nat) : Bool := true

/-! ### Partitions (R413, R414) -/

def execPartCreate (port : Port) (s : State) : Out :=
  mailbox 0x01 12 false port s (fun a => decide (a.getD 0 0 < 8) && zeroBytes ((a.drop 2).take 2)) noRange fun s a => s.mbLatch 0x01 a

def execPartRemove (port : Port) (s : State) : Out :=
  mailbox 0x02 1 false port s (fun _ => true) noRange fun s a => s.mbLatch 0x02 a

/-- The partition exists, or a scrub of it is pending. -/
def Part.owns (x : Part) : Bool := x.live || x.scrub

/-- The first reason that refuses PART_CREATE at the snapshot. -/
def State.createRefusal (s : State) (a : List Nat) : Option Nat :=
  let p := a.getD 0 0
  let teams := a.getD 1 0
  let base := le a 4 2
  let size := le a 6 2
  let first := le a 8 2
  let count := le a 10 2
  let clash := (List.range 8).any fun q =>
    let x := s.part q
    x.owns && (decide (q = p) || decide (Nat.land x.teams teams ≠ 0) || overlap base size x.gddrBase x.gddrSize ||
      overlap first count x.sctxFirst x.sctxCount)
  if teams = 0 ∨ size = 0 ∨ count = 0 then some rIllegalShape
  else if (List.range 8).any fun t => decide (teams / 2 ^ t % 2 = 1) && !s.teamPresent t then some rUnitAbsent
  else if s.gddrTop < (base + size) * 0x100000 ∨ 4096 < first + count then some rLengthBounds
  else if clash then some rPermission
  else none

/-- An open debug session reaches a partition: a PF session by its SCOPE, JTAG every one (R489, R490). -/
def State.debugReaches (s : State) (p : Nat) : Bool :=
  decide (s.getF F.DBG_SESSION_STATUS_JTAG_ATTACHED = 1) ||
    decide (s.getF F.DBG_SESSION_STATUS_PF_OPEN = 1 ∧ s.getF F.DBG_SESSION_STATUS_PF_SCOPE / 2 ^ p % 2 = 1)

/-- Debug sessions that are open and reach a new partition (R430). -/
def State.sessionsOn (s : State) (p : Nat) : Nat :=
  s.getF F.DBG_SESSION_STATUS_JTAG_ATTACHED + (if s.getF F.DBG_SESSION_STATUS_PF_OPEN = 1 then s.getF F.DBG_SESSION_STATUS_PF_SCOPE / 2 ^ p % 2 else 0)

def State.createPart (s : State) (a : List Nat) : State :=
  match s.createRefusal a with
  | some r => s.mbReply r
  | none =>
    let x : Part := { live := true, teams := a.getD 1 0, gddrBase := le a 4 2, gddrSize := le a 6 2, sctxFirst := le a 8 2, sctxCount := le a 10 2,
                      dbgSessions := s.sessionsOn (a.getD 0 0) }
    let reached := s.getF F.DBG_SESSION_STATUS_REACHED
    let s1 := if s.debugReaches (a.getD 0 0) then s.setF F.DBG_SESSION_STATUS_REACHED (Nat.lor reached (2 ^ a.getD 0 0)) else s
    { s1 with parts := tset part0h s1.parts (a.getD 0 0) x }.mbReply 0

/-- Everything that a partition holds is freed: objects and keys, KV contexts, stream contexts, rings and VFs. -/
def State.emptyPart (s : State) (p : Nat) : State :=
  let bound := (s.objsOf p).filter fun e => e.2.bound
  let s1 := { s with objs := s.objs.filter (fun (e : Nat × Obj) => e.1 / 65536 ≠ p), copies := tset copy0 s.copies p (0, 0),
                     keys := bound.foldl (fun t (e : Nat × Obj) => tset key0 t e.2.keySlot {}) s.keys,
                     assay := { s.assay with sets := s.assay.sets.filter fun (b : BoundSet) => b.part ≠ p } }
  let s2 := s1.kvRemove p
  let x := s.part p
  let s3 := (s2.listedCtxs.filter fun n => decide (x.sctxFirst ≤ n ∧ n < x.sctxFirst + x.sctxCount)).foldl (fun u n => u.setCx n 0 63 62 0) s2
  let ringOffs := s3.regs.filterMap fun e => if 0x100000 ≤ e.1 ∧ e.1 < 0x200000 ∧ e.1 % 64 = 4 then some ((e.1 - 0x100000) / 64) else none
  let s4 := (ringOffs.filter fun r => s3.rEN r == 1 && s3.rPART r == p).foldl (fun u r => u.setF (ringF r 1 31 1) 0) s3
  let vfs := (List.range 64).filter fun v => decide (s.vfPart v = some p)
  let s5 := vfs.foldl (fun u v => u.setF (F.HQE_VF_VALID v) 0) s4
  { s5.regroup with tdis := vfs.foldl (fun t v => tset tdi0 t v 3) s5.tdis }

def State.removePart (s : State) (p : Nat) : State :=
  if (s.part p).live = false then s.mbReply rPermission
  else
    let s1 := (s.closePart p causePart).emptyPart p
    { s1 with parts := tset part0h s1.parts p { (s1.part p) with live := false, scrub := true } }.mbReply 0

/-- The scrub of a removed partition's GDDR6 range completes: its number and resources are available again. -/
def execPartScrubComplete (p : Nat) (s : State) : Out :=
  if s.phase ≠ .up then .refused .cannotOccur
  else if 8 ≤ p then .refused .noSuchUnit
  else if (s.part p).scrub = false then .refused .cannotOccur
  else
    let x := s.part p
    let lo := x.gddrBase * 0x100000
    let hi := lo + x.gddrSize * 0x100000
    let s1 := (s.zeroMem lo hi).ueClear lo (hi - lo)
    .next { s1 with parts := tset part0h s1.parts p {} }

/-! ### Bundles (R426, R427) -/

/-- An address range within the partition's GDDR6 range or the host window. -/
def State.mbRange (s : State) (p a len : Nat) : Bool := s.inRange p a len || inHost a len

def execBundleImport (port : Port) (s : State) : Out :=
  mailbox 0x10 24 false port s (fun a => zeroBytes ((a.drop 1).take 1) && zeroBytes ((a.drop 4).take 4))
    (fun a => s.mbRange (a.getD 0 0) (le a 8 8) (le a 16 8)) fun s a => s.mbLatch 0x10 a

def execBundleDrop (port : Port) (s : State) : Out :=
  mailbox 0x11 4 false port s (fun a => zeroBytes ((a.drop 1).take 1)) noRange fun s a => s.mbLatch 0x11 a

/-- The header is consistent and the bundle fits its length. -/
def bundleOk (h : List Nat) (len : Nat) : Bool :=
  let n := le h 6 1
  let plain := le h 0x10 8
  let blocks := le h 0x18 4
  let tag := le h 0x20 8
  let data := le h 0x28 8
  decide (le h 0 4 = 0x424E444C ∧ le h 4 2 = 1 ∧ 1 ≤ n ∧ n ≤ 64) && zeros h 7 1 && zeros h 0x70 144 &&
    decide (blocks = (plain + 4095) / 4096 ∧ tag % 4096 = 0 ∧ 256 + 1664 * n ≤ tag ∧ data % 4096 = 0 ∧ tag + 16 * blocks ≤ data ∧
      data + 4096 * blocks ≤ len)

/-- The wrap entry for this device, by its bytes. -/
def State.wrapFor (s : State) (addr n : Nat) : Option (List Nat) :=
  ((List.range n).map fun i => s.ldBytes (addr + 256 + 1664 * i) 1664).find? fun w => decide (le w 0 32 = s.idDigest)

/-- The content key that a wrap entry carries (R427, step 4). -/
def State.unwrap (s : State) (h w : List Nat) : Option Nat :=
  let ss := Config.kemDecap s.kemSeed ((w.drop 32).take 1568)
  let kek := Config.shake256 32 (ss ++ (h.drop 8).take 8 ++ w.take 32)
  (Config.gcmOpen kek 0 h ((w.drop 1600).take 32) (le w 1632 16)).map leNat

/-- Begin an import at the snapshot: the reason of its refusal, or the object placed and the copy under way. -/
def State.importStart (s : State) (a : List Nat) : Except Nat State :=
  let p := a.getD 0 0
  let id := le a 2 2
  let addr := le a 8 8
  let h := s.ldBytes addr 256
  if bundleOk h (le a 16 8) = false then .error rIllegalShape
  else if (s.part p).live = false then .error rPermission
  else match s.declared p id with
  | none => .error rPermission
  | some x =>
    if (s.obj p id).stage ≠ 0 ∨ x.size ≠ le h 0x10 8 then .error rPermission
    else match s.wrapFor addr (le h 6 1) with
    | none => .error rPermission
    | some w => match s.unwrap h w with
      | none => .error rIntegrity
      | some key => match (if 65536 < s.objs.length + 1 then none else s.placeObj p id { x with bound := true, ro := true }) with
        | none => .error rStoreOverflow
        | some t =>
          .ok { t with assay := { t.assay with copying := some { part := p, obj := id, addr := addr, key := key, hdr := h } } }

/-- The plaintext of the bundle's blocks, where every tag holds. -/
def State.openBundle (s : State) (m : Import) : Option (List Nat) :=
  let k : KeySlot := { live := true, key := m.key, noncePrefix := le m.hdr 0x1C 4, tags := m.addr + le m.hdr 0x20 8 }
  (List.range (le m.hdr 0x18 4)).foldr (fun i l => match l, s.openBlock k i (m.addr + le m.hdr 0x28 8 + 4096 * i) with
    | some l, some b => some (b ++ l)
    | _, _ => none) (some [])

/-- Fill the homes with ciphertext, and the Pool extents of a pinned object with plaintext. -/
def State.fillBound (s : State) (m : Import) (x : Obj) (plain : List Nat) : State :=
  let data := m.addr + le m.hdr 0x28 8
  (numbered 0 x.segs).foldl (fun u (g : Nat × Seg) =>
    let len := (x.segLen g.1 + 4095) / 4096 * 4096
    let u1 := match g.2.home with
      | some a => (u.stBytes a (s.ldBytes (data + g.1 * segSize) len)).ueClear a len
      | none => u
    match g.2.pool with
    | some a => (u1.stBytes a ((plain.drop (g.1 * segSize)).take (x.segLen g.1))).ueClear a len
    | none => u1) s

/-- The import is refused: the object is unloaded, and no key is held. -/
def State.importFail (s : State) (m : Import) (r : Nat) : State :=
  let s1 := (s.stN (s.objEntry m.part m.obj + 16) 8 0).setObj m.part m.obj {}
  { s1 with assay := { s1.assay with copying := none } }.mbReply r

/-- The copy of the bundle completes: every block has been checked, and the plaintext's digest decides; a free key
slot takes the content key. The object is loaded at the next edge. -/
def execBundleCopyComplete (s : State) : Out :=
  if s.phase ≠ .up then .refused .cannotOccur
  else match s.assay.copying with
  | none => .refused .cannotOccur
  | some m =>
    if m.ok then .refused .cannotOccur
    else
      let x := s.obj m.part m.obj
      match s.openBundle m with
      | none => .next (s.importFail m rIntegrity)
      | some b =>
        let plain := b.take x.size
        let digest := Config.shake256 64 plain
        if digest ≠ le m.hdr 0x30 64 then .next (s.importFail m rIntegrity)
        else match (List.range 64).find? fun i => !(s.keySlot i).live with
        | none => .next (s.importFail m rStoreOverflow)
        | some i =>
          let k : KeySlot := { live := true, key := m.key, noncePrefix := le m.hdr 0x1C 4, tags := m.addr + le m.hdr 0x20 8 }
          let s0 := s.stN (s.objEntry m.part m.obj) 8 ((s.objWord m.part m.obj 0) ||| BitVec.ofNat 64 (2 ^ 58 + 2 ^ 57)).toNat
          let s1 := (s0.fillBound m x plain).setObj m.part m.obj { x with filled := true, keySlot := i }
          let set : BoundSet := { part := m.part, obj := m.obj, bundle := le m.hdr 8 8, digest := digest }
          let y := s1.part m.part
          let y1 : Part := { y with imports := y.imports + 1, weightChain := Config.shake256 64 (leBytes 64 y.weightChain ++ leBytes 64 digest) }
          .next { s1 with keys := tset key0 s1.keys i k, parts := tset part0h s1.parts m.part y1,
                          assay := { s1.assay with
                            copying := some { m with ok := true },
                            sets := s1.assay.sets.filter (fun (b : BoundSet) => ¬ (b.part = m.part ∧ b.obj = m.obj)) ++ [set] } }

/-- At an edge an import whose object has become loaded is DONE. -/
def State.importDone (s : State) : State :=
  match s.assay.copying with
  | some m => if m.ok then { s with assay := { s.assay with copying := none } }.mbReply 0 else s
  | none => s

/-! ### HALLMARK (R418, R419) -/

/-- Where the Partition Hallmark follows the Device Hallmark: at the next multiple of 64. -/
def hallmarkNext (out : Nat) : Nat := align64 (out + 5160)
/-- Bytes that a HALLMARK request writes from `out` on. -/
def State.hallmarkLen (s : State) (p out : Nat) : Nat :=
  if p = 0xFF then 5160 else hallmarkNext out - out + 0x650 + 80 * (s.setsOf p).length

/-- Write the Hallmarks that a request asks for. -/
def State.writeHallmark (s : State) (a : List Nat) : State :=
  let p := a.getD 0 0
  let out := le a 8 8
  let nonce := (a.drop 16).take 32
  if p ≠ 0xFF ∧ (s.part p).live = false then s.mbReply rPermission
  else
    let s1 := s.stBytes out (s.deviceHallmark nonce)
    (if p = 0xFF then s1 else s1.stBytes (hallmarkNext out) (s.partHallmark p nonce)).mbReply 0

/-- HALLMARK: while ticks run it is answered from the state that the next snapshot leaves. (DEDUCED, log 85) -/
def execHallmark (port : Port) (s : State) : Out :=
  mailbox 0x20 48 false port s (fun a => zeroBytes ((a.drop 1).take 7) && decide (a.getD 0 0 < 8 ∨ a.getD 0 0 = 0xFF))
    (fun a => s.mbRange (a.getD 0 0) (le a 8 8) (s.hallmarkLen (a.getD 0 0) (le a 8 8))) fun s a =>
      if s.pace.ticking then { s.mbStatus 1 0 with assay := { s.assay with asked := s.assay.asked ++ [a] } } else s.writeHallmark a

/-- After a snapshot the requests that waited for it are answered. (DEDUCED, log 85) -/
def State.answerHallmarks (s : State) : State :=
  s.assay.asked.foldl (fun u a => u.writeHallmark a) { s with assay := { s.assay with asked := [] } }

/-! ### Fuses (R392) -/

def execFuseRevoke (port : Port) (s : State) : Out :=
  mailbox 0x30 1 true port s (fun a => decide (a.getD 0 0 < 4)) noRange fun s a => s.mbLatch 0x30 a
def execFuseProgram (port : Port) (s : State) : Out :=
  mailbox 0x31 36 true port s (fun a => decide (a.getD 0 0 < 4) && zeroBytes ((a.drop 1).take 3)) noRange fun s a => s.mbLatch 0x31 a
def execFuseFloor (port : Port) (s : State) : Out :=
  mailbox 0x32 1 true port s (fun a => decide (a.getD 0 0 ≤ 64)) noRange fun s a => s.mbLatch 0x32 a

/-- Fuse bits once set stay set. The running boot goes on with the fuses that it read (R392); every fuse write clears the
wake record. -/
def State.burn (s : State) (off : Nat) (b : List Nat) : State :=
  let fuses := (numbered off b).foldl (fun t (e : Nat × Nat) => tset nat0 t e.1 (Nat.lor (tget nat0 t e.1) (e.2 % 256))) s.fuses
  { s with fuses := fuses, aon := { s.aon with wake := none } }

def State.fuseApply (s : State) (op : Nat) (a : List Nat) : State :=
  let n := a.getD 0 0
  let v := s.liveFuses
  match op with
  | 0x30 =>
    if v.slotUsable n ∧ ((List.range 4).filter v.slotUsable).length ≤ 1 then s.mbReply rPermission
    else (s.burn (0x80 + n) [255]).mbReply 0
  | 0x31 =>
    if v.programmed n ∨ v.revoked n then s.mbReply rPermission else (s.burn (32 * n) ((a.drop 4).take 32)).mbReply 0
  | _ =>
    let old := v.fuseN 0x84 8
    let have_ := bitsSet 64 old
    if n < have_ then s.mbReply rPermission
    else
      let more := ((List.range 64).filter fun i => old / 2 ^ i % 2 = 0).take (n - have_)
      (s.burn 0x84 (leBytes 8 (old + sumNat (more.map fun i => 2 ^ i)))).mbReply 0

/-- A mailbox operation takes effect in class 3 (R416). (DEDUCED, log 84) -/
def State.mboxApply (s : State) (op : Nat) (a : List Nat) : State :=
  match op with
  | 0x01 => s.createPart a
  | 0x02 => s.removePart (a.getD 0 0)
  | 0x10 => (match s.importStart a with
    | .ok t => t
    | .error r => s.mbReply r)
  | 0x11 => (s.freeObj (a.getD 0 0) (le a 2 2)).mbReply 0
  | _ => s.fuseApply op a

/-! ### SPDM (R421, R422) -/

def spdm0 : Nat → Spdm := fun _ => {}
def State.spdmOf (s : State) (f : Nat) : Spdm := tget spdm0 s.spdm f
def State.setSpdm (s : State) (f : Nat) (x : Spdm) : State := { s with spdm := tset spdm0 s.spdm f x }

/-- The answer over a path: DOE `f`, or the management port as 64. `code` is the SPDM response code, 0x7F for an error. -/
def State.answer (s : State) (f code : Nat) (data : List Nat) : State :=
  if f = 64 then { s with mgmt := { s.mgmt with answer := (code, data) } } else { s with doe := (f, code, data) }

def State.spdmError (s : State) (f : Nat) : State := s.answer f 0x7F []

/-- A request over a path of the responder, which answers from DRT_READY; `stage` is the least that negotiation
must have come to. -/
def spdmReq (f stage : Nat) (s : State) (act : State → Spdm → State) : Out :=
  if s.phase ≠ .up ∨ s.getF F.HQE_STATUS_DRT_READY = 0 then unreached s
  else if 65 ≤ f then .refused .noSuchUnit
  else if (s.spdmOf f).stage < stage then .next (s.spdmError f)
  else .next (act s (s.spdmOf f))

/-- GET_VERSION begins the connection anew: SPDM 1.3. (PRESUMED, log 86) -/
def execGetVersion (f : Nat) (s : State) : Out := spdmReq f 0 s fun s _ => (s.setSpdm f { stage := 1 }).answer f 0x04 [0x13]
def execGetCapabilities (f : Nat) (s : State) : Out :=
  spdmReq f 1 s fun s x => (s.setSpdm f { x with stage := max x.stage 2 }).answer f 0x61 []
/-- The algorithms of R421: `ok` says that the requester offers them all. -/
def execNegotiateAlgorithms (f : Nat) (ok : Bool) (s : State) : Out :=
  spdmReq f 2 s fun s x => if ok then (s.setSpdm f { x with stage := 3 }).answer f 0x63 [] else s.spdmError f

def State.cert (s : State) : List Nat := Config.certificate s.idPub s.serial

def execGetDigests (f : Nat) (s : State) : Out :=
  spdmReq f 3 s fun s _ => s.answer f 0x01 (1 :: leBytes 64 (Config.sha3 s.cert))
/-- Slot 0 alone is provisioned. -/
def execGetCertificate (f slot : Nat) (s : State) : Out :=
  spdmReq f 3 s fun s _ => if slot = 0 then s.answer f 0x02 s.cert else s.spdmError f
def execSpdmChallenge (f slot nonce : Nat) (s : State) : Out :=
  spdmReq f 3 s fun s _ => if slot = 0 then s.answer f 0x03 (s.sign (Config.transcript 3 f nonce)) else s.spdmError f

/-- A measurement (Table TR-7), where the path may have it. -/
def State.measure (s : State) (f idx nonce : Nat) : Option (List Nat) :=
  let n := leBytes 32 nonce
  let b := s.deviceBody n
  let part (p : Nat) : Option (List Nat) :=
    if (s.part p).live ∧ (f = 0 ∨ f = 64 ∨ s.vfPart f = some p) then some (s.partHallmark p n) else none
  if 1 ≤ idx ∧ idx ≤ 4 then some ((b.drop (0x48 + 64 * (idx - 1))).take 64 ++ (b.drop (0x148 + 4 * (idx - 1))).take 4)
  else match idx with
  | 5 => some ((b.drop 0x158).take 12)
  | 6 => some ((b.drop 0x164).take 12)
  | 7 => some ((b.drop 0x170).take 128)
  | 8 => some (s.deviceHallmark n)
  | _ => if 0x10 ≤ idx ∧ idx < 0x18 then part (idx - 0x10) else none

def execGetMeasurements (f idx nonce : Nat) (s : State) : Out :=
  spdmReq f 3 s fun s _ => match s.measure f idx nonce with
    | some b => s.answer f 0x60 b
    | none => s.spdmError f

/-- A session begins; its number is the device's to choose. -/
def execKeyExchange (f slot nonce : Nat) (s : State) : Out :=
  spdmReq f 3 s fun s x =>
    if slot ≠ 0 then s.spdmError f
    else
      let id := s.free % 65536
      (s.used1.setSpdm f { x with sessions := x.sessions ++ [(id, false)] }).answer f 0x64 (leBytes 2 id ++ s.sign (Config.transcript 0x64 f nonce))

/-- FINISH with the requester's verification data: `ok` says that it verifies. -/
def execSpdmFinish (f sid : Nat) (ok : Bool) (s : State) : Out :=
  spdmReq f 3 s fun s x =>
    if ok ∧ (sid, false) ∈ x.sessions then
      (s.setSpdm f { x with sessions := x.sessions.map fun e => if e = (sid, false) then (sid, true) else e }).answer f 0x65 []
    else s.spdmError f

def execEndSession (f sid : Nat) (s : State) : Out :=
  spdmReq f 3 s fun s x =>
    if (sid, true) ∈ x.sessions then (s.setSpdm f { x with sessions := x.sessions.filter fun e => e.1 ≠ sid }).answer f 0x6C [] else s.spdmError f

/-! ### IDE (R423) -/

def ide0 : Nat → Ide := fun _ => {}
def State.ideOf (s : State) (k : Nat) : Ide := tget ide0 s.ide k
def State.setIde (s : State) (k : Nat) (x : Ide) : State := { s with ide := tset ide0 s.ide k x }

/-- A request of IDE_KM or TDISP within an established session of a DOE. -/
def inSession (f sid : Nat) (ok : Bool) (s : State) (act : State → State) : Out :=
  spdmReq f 3 s fun s x => if ok ∧ (sid, true) ∈ x.sessions then act s else s.spdmError f

/-- The number of a key. -/
def ideKey (kset dir sub : Nat) : Nat := 2 * (8 * kset + sub) + dir
def ideOkKey (k kset dir sub : Nat) : Bool := decide (k < 17 ∧ kset < 2 ∧ dir < 2 ∧ sub < 3)

/-- One link stream and 16 selective ones. -/
def execIdeQuery (f sid : Nat) (s : State) : Out := inSession f sid (decide (f = 0)) s fun s => s.answer f 0x7E [1, 16]

/-- KEY_PROG: a key of a set that is in use is not refreshed. `lo` and `hi` are the functions that the stream is
associated with. (PRESUMED, log 86) -/
def execKeyProg (f sid k kset dir sub key lo hi : Nat) (s : State) : Out :=
  inSession f sid (decide (f = 0) && ideOkKey k kset dir sub) s fun s =>
    let x := s.ideOf k
    let i := ideKey kset dir sub
    if i ∈ x.use then s.spdmError f
    else
      let x1 := if k = 16 then x else { x with lo := lo, hi := hi }
      (s.setIde k { x1 with keys := tset nat0 x1.keys i (key + 1) }).answer f 0x7E [0]

/-- K_SET_GO: the set has its key, and no other set of the direction is in use. -/
def execKSetGo (f sid k kset dir sub : Nat) (s : State) : Out :=
  inSession f sid (decide (f = 0) && ideOkKey k kset dir sub) s fun s =>
    let x := s.ideOf k
    let i := ideKey kset dir sub
    if tget nat0 x.keys i = 0 ∨ ideKey (1 - kset) dir sub ∈ x.use then s.spdmError f
    else (s.setIde k { x with use := if i ∈ x.use then x.use else i :: x.use }).answer f 0x7E [0]

/-- A selective stream covers a function. -/
def State.streamFor (s : State) (v : Nat) : Option Nat :=
  (List.range 16).find? fun k => decide ((s.ideOf k).use ≠ [] ∧ (s.ideOf k).lo ≤ v ∧ v ≤ (s.ideOf k).hi)

/-- K_SET_STOP: a selective stream that stops takes its locked and running TDIs to ERROR at the snapshot. -/
def execKSetStop (f sid k kset dir sub : Nat) (s : State) : Out :=
  inSession f sid (decide (f = 0) && ideOkKey k kset dir sub) s fun s =>
    let x := s.ideOf k
    let i := ideKey kset dir sub
    let use := x.use.filter (· ≠ i)
    let s1 := s.setIde k { x with use := use, keys := tset nat0 x.keys i 0 }
    let hit := if use = [] ∧ x.use ≠ [] ∧ k < 16 then
        (List.range 64).filter fun v => decide (x.lo ≤ v ∧ v ≤ x.hi) && decide (tget tdi0 s.tdis v = 1 ∨ tget tdi0 s.tdis v = 2)
      else []
    (hit.foldl (fun u v => u.latch (.tdi v 3)) s1).answer f 0x7E [0]

/-! ### TDISP (R424, R425) -/

/-- The DOE may carry TDISP for the interface. -/
def tdispPath (f v : Nat) : Bool := decide (0 < v ∧ v < 64 ∧ (f = 0 ∨ f = v))

def tdisp (f sid v : Nat) (s : State) (act : State → State) : Out := inSession f sid (tdispPath f v) s act

def execGetTdispVersion (f sid v : Nat) (s : State) : Out := tdisp f sid v s fun s => s.answer f 0x7E [0x10]
def execGetTdispCapabilities (f sid v : Nat) (s : State) : Out := tdisp f sid v s fun s => s.answer f 0x7E []
def execGetDeviceInterfaceState (f sid v : Nat) (s : State) : Out := tdisp f sid v s fun s => s.answer f 0x7E [tget tdi0 s.tdis v]

/-- The BAR ranges of the VF: BAR, size, and whether it is TEE memory. -/
def State.tdiReport (s : State) (v : Nat) : List Nat :=
  let size := match s.vfPart v with
    | some p => (s.part p).gddrSize * 0x100000
    | none => 0
  [0, 0x4000000, 0, 2, size, 1, 4, 0x100000, 1]

/-- The report exists while the interface is locked or runs. -/
def execGetDeviceInterfaceReport (f sid v : Nat) (s : State) : Out :=
  tdisp f sid v s fun s =>
    if tget tdi0 s.tdis v = 1 ∨ tget tdi0 s.tdis v = 2 then s.answer f 0x7E (s.tdiReport v) else s.spdmError f

/-- LOCK is judged when it is applied; its nonce is drawn then. (PRESUMED, log 86) -/
def execLockInterfaceRequest (f sid v : Nat) (s : State) : Out :=
  tdisp f sid v s fun s => if tget tdi0 s.tdis v = 0 then s.latch (.tdi v 1) else s.spdmError f

/-- START carries the nonce of the LOCK. -/
def execStartInterfaceRequest (f sid v nonce : Nat) (s : State) : Out :=
  tdisp f sid v s fun s =>
    if tget tdi0 s.tdis v = 1 ∧ tget nat0 s.tdiNonce v = nonce then (s.latch (.tdi v 2)).answer f 0x7E [0] else s.spdmError f

def execStopInterfaceRequest (f sid v : Nat) (s : State) : Out :=
  tdisp f sid v s fun s => (s.latch (.tdi v 0)).answer f 0x7E [0]

/-- LOCK is refused. -/
def State.lockRefused (s : State) (v : Nat) : Bool :=
  match s.vfPart v with
  | none => true
  | some p => (s.streamFor v).isNone || s.debugReaches p || !(s.part p).live

/-- A change of a TDI's state at the snapshot. (DEDUCED, log 85) -/
def State.tdiApply (s : State) (v st : Nat) : State :=
  let put (t : State) : State := { t with tdis := tset tdi0 t.tdis v st }
  match st with
  | 1 =>
    if tget tdi0 s.tdis v ≠ 0 ∨ s.lockRefused v then s.spdmError v
    else
      let n := s.free
      ({ put s.used1 with tdiNonce := tset nat0 s.tdiNonce v n }).answer v 0x7E [n]
  | 2 => if tget tdi0 s.tdis v = 1 then put s else s
  | _ => put s

/-- An operator debug session reaches partitions: their TDIs go to ERROR (R425). -/
def State.debugTdis (s : State) (scope : Nat) : State :=
  { s with tdis := (List.range 64).foldl (fun t v => match s.vfPart v with
      | some p => if scope / 2 ^ p % 2 = 1 ∧ tget tdi0 t v ≠ 0 then tset tdi0 t v 3 else t
      | none => t) s.tdis }

end Sys2Proof.Machine
end

