-- ==== Sys2Proof/Machine/Flags.lean ====
section
/-!
DEFINITION. Status words: registers whose fields show the state of a unit and are held nowhere else, as a read of
CFG finds them (Tables TC-4, TC-7, TC-8, MS-5 to MS-7, HQ-7, HF-12, AS-8, RL-9), and what a read clears (R12, R13).
-/
namespace Sys2Proof.Machine

/-- The logical core in a slot; 0xFF for the spare or no core. -/
def State.logicalOf (s : State) (k : Nat) : Nat := ((List.range 64).find? fun n => decide (s.slotOf n = some k)).getD 0xFF

/-- The work of slot `k`: its Teamster halted, its queues empty, nothing in its engines. -/
def Core.still (c : Core) : Bool :=
  decide (c.run = false ∧ c.mq = [] ∧ c.xq = [] ∧ c.vq = [] ∧ c.dq = [] ∧ c.kq = [] ∧ c.actM = none ∧ c.actX = none ∧
    c.actV = none ∧ c.actD = none ∧ c.actK = none ∧ c.landM = [] ∧ c.landD = [])

/-- CORE_STATUS. CLK_GATED follows R81 from the release of the core on, though Table TC-7 gives its reset as 0.
(DESIGN CHOICE, log 104) -/
def State.coreStatus (s : State) (k : Nat) : Nat :=
  let c := s.core k
  let bit (b : Bool) (i : Nat) : Nat := if b then 2 ^ i else 0
  s.logicalOf k * 2 ^ 24 + sumNat ((List.range 8).map fun i => bit (decide (i ∈ c.usedTiles)) (8 + i)) + bit c.still 3 +
    bit (c.actM.isSome || !c.landM.isEmpty) 2 + bit c.faulted 1 + bit c.run 0

/-- TEAM_STATUS. -/
def State.teamStatus (s : State) (t : Nat) : Nat :=
  sumNat ((List.range 9).map fun p =>
    let k := 9 * t + p
    let n := s.logicalOf k
    (if n = 0xFF then 0 else 2 ^ p) + (if n = 0xFF ∨ s.coreIdle k n = true then 2 ^ (16 + p) else 0))

/-- The state of a domain with a fence: 1 ON, 2 GATED, 3 FENCED, 4 FAILED. -/
def State.domainState (s : State) (present gated : Bool) (dtype inst : Nat) : Nat :=
  if present = false then 0
  else if (s.fence dtype inst).failed then 4
  else if (s.fence dtype inst).closed then 3
  else if gated then 2 else 1

def State.teamGated (s : State) (t : Nat) : Bool := decide (s.getF (F.TEAM_PWR_STATUS_STATE t) = 1)

/-- A word of eight such states. -/
def nibbles (f : Nat → Nat) (n : Nat) : Nat := sumNat ((List.range n).map fun i => f i * 16 ^ i)

/-- STAB_QLOC of the object queried. -/
def Obj.qloc (x : Obj) : Nat :=
  ((x.segs.filter fun (g : Seg) => g.pool.isSome).length % 65536) * 65536 + (if x.lost then 2 else 0) + (if x.stage = 2 then 1 else 0)

def State.queried (s : State) : Obj := s.obj (s.getF F.STAB_QUERY_PART) (s.getF F.STAB_QUERY_ID)

/-- A register of a Team's common block, at an offset within it. -/
def State.teamView (s : State) (t off : Nat) (held : W32) : W32 :=
  let x := s.team t
  let w (n : Nat) : W32 := BitVec.ofNat 32 n
  if off = 0 then w (s.teamStatus t)
  else if off = 0x100 then w ((if s.fftPresent t then 16 - x.fq.length else 0) * 65536 + (16 - x.eq.length))
  else if off = 0x20C then held ||| w (min 64 (s.tallyQueued t))
  else if 0x1000 ≤ off ∧ off < 0x2000 then
    let y := tget tally0 x.tally ((off - 0x1000) / 16)
    w (match off % 16 with
      | 0 => y.epoch
      | 4 => y.limit
      | 8 => y.next
      | _ => y.hwm)
  else if 0x20000 ≤ off ∧ off < 0x30000 then w ((tget trace0 x.trace ((off - 0x20000) / 16)).toNat / 2 ^ (8 * (off % 16)))
  else held

/-- A half of a CSR in the window of a core slot, which reads as CSRR does (R123); a number without a CSR reads as 0. -/
def State.csrView (s : State) (k off : Nat) : W32 :=
  let n := s.logicalOf k
  let num := (off - 0x1000) / 8
  let v := if num = 0 then n + k / 9 * 256 else (s.csr n (s.core k) num).getD 0
  BitVec.ofNat 32 (v / 2 ^ (8 * (off % 8)))

def csrWindow (off : Nat) : Bool := decide (0x1000 ≤ off ∧ off < 0x1300)

/-- The offset of BUDGET_LEFT, a free value, in a slot. -/
def isBudgetLeft (off : Nat) : Bool :=
  decide (0x1000000 ≤ off ∧ off < 0x3000000 ∧ 0x40000 ≤ (off - 0x1000000) % 0x400000 ∧ (off - 0x1000000) % 0x40000 / 8 = 0x202)

/-- A register of a core slot. -/
def State.slotView (s : State) (k off : Nat) (held : W32) : W32 :=
  if off = 0 then BitVec.ofNat 32 (s.coreStatus k)
  else if 0x800 ≤ off ∧ off < 0x900 then BitVec.ofNat 32 ((s.core k).sem ((off - 0x800) / 4))
  else if csrWindow off then s.csrView k off
  else held

/-- The word that a CFG offset shows. -/
def State.view (s : State) (off : Nat) : W32 :=
  let held := s.rd off
  let w (n : Nat) : W32 := BitVec.ofNat 32 n
  if 0x1000000 ≤ off ∧ off < 0x3000000 then
    let t := (off - 0x1000000) / 0x400000
    let o := (off - 0x1000000) % 0x400000
    if o < 0x40000 then s.teamView t o held else s.slotView (9 * t + (o - 0x40000) / 0x40000) ((o - 0x40000) % 0x40000) held
  else if 0x380000 ≤ off ∧ off < 0x380800 ∧ off % 0x100 = 0x18 then w (s.shareUsed ((off - 0x380000) / 0x100) / 0x1000)
  else if 0x380000 ≤ off ∧ off < 0x380800 ∧ off % 0x100 = 0x1C then
    w (s.arenaShown ((off - 0x380000) / 0x100) / 0x10000)
  else match off with
  | 0x300020 => held ||| w (if s.objs.any (fun e => e.2.lost) then 2 else 0)
  | 0x300054 => w s.queried.heat
  | 0x300058 => w (s.queried.qloc)
  | 0x400000 => w (nibbles (fun t => s.domainState (s.teamPresent t) (s.teamGated t) 2 t) 8)
  | 0x080010 => w (16384 - s.descHeld)
  | 0x600224 => w (64 - s.fab.ops.length)
  | 0xA00010 => w (16 * sumNat ((List.range 4).map fun c => if (s.fence 4 c).closed then 2 ^ c else 0))
  | 0x800500 => w (nibbles (fun t => s.domainState (s.teamPresent t) (s.teamGated t) 1 t) 8)
  | 0x800504 => w (nibbles (fun g => s.domainState (s.domainPresent 3 g) (decide (tget nat0 s.vis.groups g = 0)) 3 g) 4)
  | 0x800508 => w (nibbles (fun c => s.domainState true false 4 c) 4)
  | _ => held

/-- The function whose MSI-X table a port reaches. (DEDUCED, log 37) -/
def portFn : Port → Nat
  | .vf v => v
  | _ => 0

/-- A dword of a function's MSI-X table or Pending Bit Array, at its place in BAR0 (R328). -/
def State.msixShow (s : State) (fn off : Nat) : Option W32 :=
  if 0xC0000 ≤ off ∧ off < 0xC0200 then some (tget msix0 s.msix (128 * fn + (off - 0xC0000) / 4))
  else if off = 0xD0000 then some (tget msix0 s.msix (0x10000 + fn))
  else none

/-- A read of a register: what it shows, its WO fields and reserved bits as 0. An offset that the register maps do not
define reads as 0, and so does one whose unit is absent (R5, R13),
but for the buffers that they give as ranges. (DESIGN CHOICE, log 95) -/
def State.cfgShow (s : State) (off : Nat) : W32 :=
  if s.offAbsent off then 0#32
  else match regAt off with
  | some d => readFields (s.view off) d.fields &&& shownBits off
  | none =>
    if (0x1000000 ≤ off ∧ off < 0x3000000 ∧ 0x20000 ≤ (off - 0x1000000) % 0x400000 ∧ (off - 0x1000000) % 0x400000 < 0x30000) ∨
        (0x1000000 ≤ off ∧ off < 0x3000000 ∧ 0x40000 ≤ (off - 0x1000000) % 0x400000 ∧ (off - 0x1000000) % 0x400000 < 0x280000 ∧
          csrWindow ((off - 0x1000000) % 0x40000) = true) ∨
        (0x801000 ≤ off ∧ off < 0x801400) ∨ (0x43000 ≤ off ∧ off < 0x44000) then s.view off
    else (s.msixShow 0 off).getD 0#32

/-- The offsets that VF `v` of partition `p` reaches through its BAR0, but for its MSI-X table and PBA (R327). No table
divides the Swage profiles, so all may be read. (DESIGN CHOICE, log 109) -/
def State.vfSees (s : State) (v p off : Nat) : Bool :=
  decide (off < 0x10000) || (decide (0x100000 ≤ off ∧ off < 0x200000) && s.rOWNER ((off - 0x100000) / 64) == v) ||
  (decide (0x780000 ≤ off ∧ off < 0x800000) && s.shareOwner ((off - 0x780000) / 128) == some p) ||
  (decide (0x240000 ≤ off ∧ off < 0x280000) && s.shareOwner ((off - 0x240000) / 64) == some p) || decide (0x740000 ≤ off ∧ off < 0x744000) ||
  decide (0x3C0000 + 0x100 * p ≤ off ∧ off < 0x3C0100 + 0x100 * p) || decide (0x380000 + 0x100 * p ≤ off ∧ off < 0x380100 + 0x100 * p)

/-- A word that a port reads from CFG; `none` where the read is not performed, which PCIe answers with Unsupported Request:
an offset that is not aligned (R29), or a VF whose entry is not VALID (R325). (DESIGN CHOICE, log 109) -/
def State.portShow (s : State) (port : Port) (off : Nat) : Option W32 :=
  if off % 4 ≠ 0 then none
  else match port with
  | .vf v => (s.vfPart v).map fun p => (s.msixShow v off).getD (if s.vfSees v p off then s.cfgShow off else 0#32)
  | .mgmt => none
  | _ => some (s.cfgShow off)

/-! ### The aperture onto GDDR6 (Table HQ-1, R27, R425) -/

/-- The GDDR6 address of `len` bytes at offset `x` of a function's BAR2; `none` where they are beyond what it reaches. The PF
does not reach the range of a partition that a TDI has locked. -/
def State.aptAddr (s : State) (port : Port) (x len : Nat) : Option Nat :=
  let place := match port with
    | .pf => some (s.getF F.HQE_APT_BASE_HI_ADDR * 2 ^ 32 + s.getF F.HQE_APT_BASE_LO_ADDR * 2 ^ 28 + x)
    | .vf v => (s.vfPart v).bind fun p =>
      let a := (s.part p).gddrBase * 0x100000 + x
      if s.inRange p a len then some a else none
    | _ => none
  place.bind fun a =>
    let locked := port == .pf && (List.range 8).any fun p => s.tdiLocked p &&
      decide ((s.part p).gddrBase * 0x100000 < a + len ∧ a < ((s.part p).gddrBase + (s.part p).gddrSize) * 0x100000)
    if s.gddrTop < a + len ∨ locked = true ∨ ((List.range len).any fun i => s.outOfService (a + i)) = true then none else some a

/-- The bytes that an inbound read through BAR2 returns; `none` where it ends in Unsupported Request, and where the data
holds an uncorrectable error, which is not passed on (R31). No row of the table is such an access. (DESIGN CHOICE, log 112) -/
def State.aptRead (s : State) (port : Port) (x len : Nat) : Option (List Nat) :=
  (s.aptAddr port x len).bind fun a => if s.ueHit a len then none else some (s.ldBytes a len)

/-- An inbound write through BAR2; one that reaches no GDDR6 is discarded and counted (R27).
(DESIGN CHOICE, log 112) -/
def State.aptWrite (s : State) (port : Port) (x : Nat) (bytes : List Nat) : State :=
  match s.aptAddr port x bytes.length with
  | some a => (s.stBytes a bytes).ueClear a bytes.length
  | none => s.addF F.RAS_UNPOP_WR_COUNT 1

/-- The counters that AON totals keep apart from what a read clears (R480). -/
def ceOffset (off : Nat) : Bool :=
  ((List.range 10).any fun m => decide ((F.RAS_ECC_CE_m_COUNT m).off = off)) || decide (F.GDDR_CE_COUNT.off = off)
def ueOffset (off : Nat) : Bool :=
  ((List.range 10).any fun m => decide ((F.RAS_ECC_UE_m_COUNT m).off = off)) || decide (F.GDDR_UE_COUNT.off = off)

def prof0 : Nat → Int := fun _ => 0

/-- What the read leaves: RC fields cleared; the profile's shadow copies know of it (R494). (DESIGN CHOICE, log 95) -/
def State.cfgRead (s : State) (off : Nat) : State :=
  match (if s.offAbsent off then none else regAt off) with
  | none => if isBudgetLeft off then s.used1 else s
  | some d =>
    let n := (s.rd off).toNat
    let s0 := s.wr off (clearRc (s.rd off) d.fields)
    let s1 := { s0 with profBase := tmod prof0 s0.profBase off (· - ((n : Int) - (s0.rd off).toNat)) }
    if ceOffset off then { s1 with aon := { s1.aon with ceRead := s1.aon.ceRead + n } }
    else if ueOffset off then { s1 with aon := { s1.aon with ueRead := s1.aon.ueRead + n } }
    else s1

/-- What a read through a port leaves. -/
def State.portRead (s : State) (port : Port) (off : Nat) : State :=
  if off % 4 ≠ 0 then s
  else match port with
  | .vf v => match s.vfPart v with
    | some p => if (s.msixShow v off).isNone && s.vfSees v p off then s.cfgRead off else s
    | none => s
  | .mgmt => s
  | _ => s.cfgRead off

end Sys2Proof.Machine
end

