-- ==== Sys2Proof/Machine/Debug.lean ====
section
/-!
DEFINITION. Operator debug: stopping and resuming cores, sessions of the PF, and the test access port with its
access to the device (R488 to R493, R515). What a tick edge applies stands here as operations of its own.
-/
namespace Sys2Proof.Machine

/-! ### Cores (R491, R493) -/

/-- HALT: the Teamster stops before its next instruction. A core that runs nothing, or is stopped, stays as it is.
(DEDUCED, log 88) -/
def State.debugHalt (s : State) (k n : Nat) : State :=
  let c := s.core k
  if c.run = true ∧ c.stopped = false then (s.debugStop k 3 0 0).trace (k / 9) n 0 10 c.ctag c.cmdcnt else s

/-- RESUME, or with `step` STEP: past a BRK, at the next word. RESUME lets the held commands begin.
(DEDUCED, log 88) -/
def State.debugGo (s : State) (k n : Nat) (step : Bool) : State :=
  let c := s.core k
  if c.stopped = false then s
  else
    let pc := if s.getF (F.DBG_CORE_STATUS_CAUSE k) = 1 then c.pc + 1 else c.pc
    let s1 := s.setCore k { c with stopped := false, stepping := step, pc := pc, heldCmds := if step then c.heldCmds else [] }
    (((s1.setF (F.DBG_CORE_STATUS_CAUSE k) 0).setF (F.DBG_CORE_STATUS_BP k) 0).setF (F.DBG_CORE_STATUS_CODE k) 0).trace
      (k / 9) n 0 11 c.ctag c.cmdcnt

/-- DBG_CORE_CMD by its OP. -/
def State.coreCommand (s : State) (op k n : Nat) : State :=
  match op with
  | 1 => s.debugHalt k n
  | 2 => s.debugGo k n false
  | 3 => s.debugGo k n true
  | _ => s

/-- The debug registers of a core slot: the slot, and the offset in it. -/
def debugReg (off : Nat) : Option (Nat × Nat) :=
  if 0x1000000 ≤ off ∧ off < 0x3000000 then
    let o := (off - 0x1000000) % 0x400000
    let r := o % 0x40000
    if 0x40000 ≤ o ∧ o < 0x280000 ∧ 0x100 ≤ r ∧ r < 0x150 then some (9 * ((off - 0x1000000) / 0x400000) + (o / 0x40000 - 1), r) else none
  else none

/-- Carry out a write that a Team held until it was awake: TALLY_CMD, TEAM_PWR_CTRL, DBG_CORE_CMD, or a plain register (R84).
(DEDUCED, log 28) -/
def State.heldWrite (s : State) (t : Nat) (e : Nat × W32) : State :=
  if e.1 = 0x208 then (if fieldOf e.2 30 2 = 0 then s else s.tallyPut t (fieldOf e.2 30 2) (fieldOf e.2 0 8))
  else if e.1 = 0x10 then s.portWrite (teamBase t + e.1) (s.keep [(F.TEAM_PWR_CTRL_IDLE_TICKS t, 1, 255), (F.TEAM_PWR_CTRL_MODE t, 0, 2)] e.2)
  else match debugReg (teamBase t + e.1) with
  | some (k, r) => if r = 0x104 then s.coreCommand (e.2.toNat / 2 ^ 30) k (s.logicalOf k) else s.portWrite (teamBase t + e.1) e.2
  | none => s.portWrite (teamBase t + e.1) e.2

/-- A write of DBG_CORE_CMD of logical core `n`: accepted while a session reaches the core; a Team that is not ON holds it.
(DEDUCED, log 87) -/
def coreCmd (op : Nat) (port : Port) (n : Nat) (s : State) : Out :=
  if s.phase ≠ .up then unreached s
  else match s.slotOf n with
  | none => .refused .noSuchUnit
  | some k =>
    if port ≠ .pf then .next (s.denied port)
    else if s.debugReaches (s.partOf n) = false then .next (s.raise F.DBG_STATUS_WRITE_REJECT)
    else .next (s.teamWrite (k / 9) (slotBase k - teamBase (k / 9) + 0x104) (BitVec.ofNat 32 (op * 2 ^ 30)) fun s => s.coreCommand op k n)

def execDebugHalt (port : Port) (n : Nat) (s : State) : Out := coreCmd 1 port n s
def execResumeCore (port : Port) (n : Nat) (s : State) : Out := coreCmd 2 port n s
def execStepCore (port : Port) (n : Nat) (s : State) : Out := coreCmd 3 port n s

/-- Every stopped core that `hit` names resumes, and its breakpoints are disabled. -/
def State.releaseCores (s : State) (hit : Nat → Bool) : State :=
  (List.range 64).foldl (fun u n => match u.slotOf n with
    | some k => if hit n then (List.range 4).foldl (fun t b => t.setF (F.DBG_BP_CTRL_EN k b) 0) (u.debugGo k n false) else u
    | none => u) s

/-! ### Sessions (R430, R490) -/

/-- A session reaches the partitions of a bitmap: their records, and the TDIs of theirs. -/
def State.reachParts (s : State) (scope : Nat) : State :=
  let live := (List.range 8).filter fun p => decide (scope / 2 ^ p % 2 = 1) && (s.part p).live
  let reached := live.foldl (fun m p => Nat.lor m (2 ^ p)) (s.getF F.DBG_SESSION_STATUS_REACHED)
  let parts := live.foldl (fun t p => tset part0h t p { tget part0h t p with dbgSessions := (tget part0h t p).dbgSessions + 1 }) s.parts
  { s.setF F.DBG_SESSION_STATUS_REACHED reached with parts := parts }.debugTdis scope

/-- OPEN at the snapshot. -/
def State.openApply (s : State) (scope : Nat) : State :=
  if s.flag F.DBG_SESSION_STATUS_PF_OPEN then s.raise F.DBG_STATUS_CMD_REJECT
  else (((s.setF F.DBG_SESSION_STATUS_PF_OPEN 1).setF F.DBG_SESSION_STATUS_PF_SCOPE scope).addF F.TRUST_DBG_PF_COUNT 1).reachParts scope

/-- CLOSE at the snapshot. -/
def State.closeApply (s : State) : State :=
  if s.flag F.DBG_SESSION_STATUS_PF_OPEN = false then s
  else
    let scope := s.getF F.DBG_SESSION_STATUS_PF_SCOPE
    let s1 := s.releaseCores fun n => decide (scope / 2 ^ s.partOf n % 2 = 1)
    (s1.setF F.DBG_SESSION_STATUS_PF_OPEN 0).setF F.DBG_SESSION_STATUS_PF_SCOPE 0

/-- A write of DBG_SESSION_CMD, by the PF. (DEDUCED, log 87) -/
def sessionCmd (port : Port) (s : State) (e : Ev) : Out :=
  if s.phase ≠ .up then unreached s else .next (if port = .pf then s.latch e else s.denied port)

def execOpenSession (port : Port) (scope : Nat) (s : State) : Out := sessionCmd port s (.pfOpen (scope % 256))
def execCloseSession (port : Port) (s : State) : Out := sessionCmd port s .pfClose

/-! ### The TAP (R488, R489, R515) -/

/-- The attach is recorded at the snapshot. -/
def State.attachApply (s : State) : State := (s.addF F.TRUST_DBG_JTAG_COUNT 1).reachParts 255

/-- The detach, at the snapshot: with no PF session open and no later attach, every stopped core resumes. -/
def State.detachApply (s : State) : State :=
  if s.flag F.DBG_SESSION_STATUS_PF_OPEN ∨ s.jtag.ir = 0x10 then s else s.releaseCores fun _ => true

/-- An instruction enters the register. -/
def State.loadIr (s : State) (code : Nat) : State :=
  let s1 := { s with jtag := { s.jtag with ir := code } }
  if s.jtag.ir ≠ 0x10 ∧ code = 0x10 then
    ((s1.setF F.DBG_SESSION_STATUS_JTAG_ATTACHED 1).setF F.DBG_SESSION_STATUS_JTAG_EN 1).latch .jtagAttach
  else if s.jtag.ir = 0x10 ∧ code ≠ 0x10 then (s1.setF F.DBG_SESSION_STATUS_JTAG_ATTACHED 0).latch .jtagDetach
  else s1

/-- The TAP is powered and out of reset. (PRESUMED, log 89) -/
def tap (s : State) (act : State → State) : Out :=
  if s.phase = .up ∨ s.phase = .halted ∨ s.phase = .recovery then .next (act s) else unreached s

/-- The data register shifted out. -/
def State.setDr (s : State) (v : Nat) : State := { s with jtag := { s.jtag with dr := v } }

/-- The codes of Table MD-3 but those of BYPASS. -/
def tapCodes : List Nat := [0x01, 0x02, 0x03, 0x04, 0x05, 0x10]

/-- BYPASS, by 0x00, 0xFF or any unassigned code: its one bit captures 0. -/
def execJtagBypass (code : Nat) (s : State) : Out :=
  if code % 256 ∈ tapCodes then .refused .otherInstruction else tap s fun s => (s.loadIr (code % 256)).setDr 0

/-- IDCODE. -/
def idcode : Nat := 0x10C0756B

def execJtagIdcode (s : State) : Out := tap s fun s => (s.loadIr 0x01).setDr idcode

/-- A word of cells, the first the least significant. -/
def cellBits (l : List Bool) : Nat := maskOfFlags l

/-- The pins are captured, and the cells take what is shifted in. -/
def State.scan (s : State) (code : Nat) (pins cells : List Bool) : State :=
  let s1 := (s.loadIr code).setDr (cellBits pins)
  { s1 with jtag := { s1.jtag with cells := cells } }

def execJtagSamplePreload (pins cells : List Bool) (s : State) : Out := tap s fun s => s.scan 0x02 pins cells
/-- EXTEST: while it is in the register the pads follow the cells. -/
def execJtagExtest (pins cells : List Bool) (s : State) : Out := tap s fun s => s.scan 0x03 pins cells
/-- CLAMP: the pads hold the cells. -/
def execJtagClamp (s : State) : Out := tap s fun s => (s.loadIr 0x04).setDr 0
/-- HIGHZ: the pads are not driven. -/
def execJtagHighz (s : State) : Out := tap s fun s => (s.loadIr 0x05).setDr 0

/-- DBGACC enters the instruction register. -/
def execJtagAttach (s : State) : Out := tap s fun s => s.loadIr 0x10

/-- DBGACC leaves the register, for BYPASS. -/
def execJtagDetach (s : State) : Out :=
  if s.jtag.ir ≠ 0x10 then .refused .cannotOccur else tap s fun s => (s.loadIr 0xFF).setDr 0

/-- TRST_N low: the instruction after a reset is IDCODE. (PRESUMED, log 89) -/
def execTapReset (s : State) : Out := tap s fun s => (s.loadIr 0x01).setDr 0

/-! ### DBGACC (Table MD-4) -/

def stDenied : Nat := 2
def stError : Nat := 3

/-- An access ends: its address, the data it read, and its STATUS. -/
def State.accEnd (s : State) (a data st : Nat) : State := { s with jtag := { s.jtag with addr := a, data := data, status := st } }

def cfgBase : Nat := 0x014000000000

/-- What DBGACC may reach of memory: the STATUS that refuses it, and the Team whose memory it is. -/
def State.accPlace (s : State) (a : Nat) : Except Nat (Option Nat) :=
  if a < 0x000800000000 then
    if s.gddrTop ≤ a ∨ s.pairOk (gddrPair a) = false then .error stError
    else if (List.range 8).any fun p => s.inRange p a 4 then .ok none
    else .error stDenied
  else if poolBase 0 ≤ a ∧ a < poolBase 8 then
    let t := (a - poolBase 0) / 0x800000
    if s.teamPresent t = false ∨ (s.fence 2 t).closed then .error stError
    else if s.partOfTeam t = none then .error stDenied
    else .ok (some t)
  else if storeBase 0 ≤ a ∧ a < storeBase 64 then
    let n := (a - storeBase 0) / 0x400000
    if storeSize ≤ (a - storeBase 0) % 0x400000 ∨ s.slotOf n = none ∨ s.coreFenced n = true then .error stError
    else if s.partOfTeam (n / 8) = none then .error stDenied
    else .ok (some (n / 8))
  else if (hostMem ≤ a ∧ a < hostMem + 0x1000000) ∨ 0x800000000000 ≤ a then .error stDenied
  else .error stError

/-- An access to a Team that is not ON waits, BUSY, and wakes it (R84). (DEDUCED, log 28) -/
def State.accHold (s : State) (t a : Nat) (w : Option Nat) : State :=
  let s1 := (s.reachTeam t).accEnd a 0 1
  { s1 with jtag := { s1.jtag with waits := some (a, w) } }

/-- A memory access: `w` is the word written, where there is one. A write of the whole word goes by R264. -/
def State.accMem (s : State) (a : Nat) (w : Option Nat) : State :=
  match s.accPlace a with
  | .error st => s.accEnd a 0 st
  | .ok t =>
    if t.any (fun t => !s.teamOn t) then s.accHold (t.getD 0) a w
    else
      let s1 := match t with
        | some t => if a < storeBase 0 then s.reachSlice t else s.reachTeam t
        | none => s
      if s1.ueHit a 4 then (s1.logUe a 0xFFFF 0).accEnd a 0 stError
      else match w with
      | none => s1.accEnd a (s1.ldN a 4) 0
      | some v => (s1.stN a 4 v).accEnd a 0 0

/-- The Team whose window of CFG an access enters, where that Team is there but not ON. The read of TEAM_PWR_STATUS, which shows
that, is answered at once. (DEDUCED, log 28) -/
def State.accGated (s : State) (off : Nat) (w : Option Nat) : Option Nat :=
  let t := (off - 0x1000000) / 0x400000
  if 0x1000000 ≤ off ∧ off < 0x3000000 ∧ s.teamPresent t = true ∧ s.teamOn t = false ∧ ¬ (w = none ∧ (off - 0x1000000) % 0x400000 = 0x14) then
    some t
  else none

/-- The registers of CFG that DBGACC writes. (DEDUCED, log 90) -/
def State.accCfgWrite (s : State) (a off v : Nat) : State :=
  match debugReg off with
  | none => s.accEnd a 0 stDenied
  | some (k, r) =>
    if s.offAbsent off then s.accEnd a 0 0
    else if r = 0x104 then (s.coreCommand (v / 2 ^ 30 % 4) k (s.logicalOf k)).accEnd a 0 0
    else (s.portWrite off (BitVec.ofNat 32 v)).accEnd a 0 0

/-- A DBGACC access. Until the host cores have started it reaches the ASSAY block alone. (DEDUCED, log 90) -/
def State.dbgAccess (s : State) (a : Nat) (w : Option Nat) : State :=
  if a % 4 ≠ 0 then s.accEnd a 0 stError
  else if cfgBase ≤ a ∧ a < cfgBase + 0x4000000 then
    let off := a - cfgBase
    if s.phase ≠ .up ∧ ¬ (0x40000 ≤ off ∧ off < 0x50000) then s.accEnd a 0 stDenied
    else match s.accGated off w with
    | some t => if w.isSome ∧ debugReg off = none then s.accEnd a 0 stDenied else s.accHold t a w
    | none =>
      match w with
      | none => (s.cfgRead off).accEnd a (s.cfgShow off).toNat 0
      | some v => if s.phase = .up then s.accCfgWrite a off v else s.accEnd a 0 stDenied
  else if s.phase ≠ .up then s.accEnd a 0 stDenied
  else s.accMem a w

/-- The access that a shift of the register issues; it takes the place of one that still waits. -/
def State.accNew (s : State) (a : Nat) (w : Option Nat) : State := { s with jtag := { s.jtag with waits := none } }.dbgAccess a w

def dbgacc (a : Nat) (w : Option Nat) (s : State) : Out :=
  if s.jtag.ir ≠ 0x10 then .refused .cannotOccur else tap s fun s => s.accNew (a % 2 ^ 48) w

def execDbgaccRead (a : Nat) (s : State) : Out := dbgacc a none s
def execDbgaccWrite (a : Nat) (w : W32) (s : State) : Out := dbgacc a (some w.toNat) s

/-! ### A Team is awake (R84) -/

/-- A DBGACC access that waited is made; while its Team is still not ON it waits on. -/
def State.accRetry (s : State) : State :=
  match s.jtag.waits with
  | some (a, w) => s.accNew a w
  | none => s

/-- The Team executes; what it held proceeds. -/
def execTeamWakeComplete (t : Nat) (s : State) : Out :=
  if s.phase ≠ .up then .refused .cannotOccur
  else if s.teamPresent t = false then .refused .noSuchUnit
  else if s.getF (F.TEAM_PWR_STATUS_STATE t) ≠ 2 then .refused .cannotOccur
  else
    let held := (s.team t).heldCfg
    let s1 := (s.setF (F.TEAM_PWR_STATUS_STATE t) 0).modTeam t fun x => { x with heldReq := false, heldCfg := [] }
    .next (held.foldl (fun u e => u.heldWrite t e) s1).accRetry

end Sys2Proof.Machine
end

