-- ==== Sys2Proof/Machine/Mgmt.lean ====
section
/-!
DEFINITION. The management endpoint: MCTP control, the sensors and effecters of PLDM, the firmware update, and the
live update of the DRT (R478 to R487, R497). An answer is a completion code and data.
-/
namespace Sys2Proof.Machine

/-! ### Completion codes -/

/-- The completion code of success. (PRESUMED, log 91) -/
def ccOk : Nat := 0x00
def ccError : Nat := 0x01
def ccInvalidData : Nat := 0x02
def ccNotReady : Nat := 0x04
/-- No such sensor, effecter or message type; outside update mode. -/
def ccUnknown : Nat := 0x80
def ccInUpdate : Nat := 0x81
def ccRange : Nat := 0x82
def ccLength : Nat := 0x83
def ccState : Nat := 0x84

/-! ### When the endpoint answers (R406, R497) -/

/-- A request: before the endpoint starts nothing answers; where it is not offered yet it receives ERROR_NOT_READY. -/
def request (ready : Phase → Bool) (s : State) (act : State → State) : Out :=
  if s.phase = .coldReset then unreached s
  else if ready s.phase then .next (act s) else .next (s.answer 64 ccNotReady [])

def always (_ : Phase) : Bool := true
def whenUp (p : Phase) : Bool := decide (p = .up)
/-- Effecters 9 and 10. -/
def whenAsleep (p : Phase) : Bool := decide (p = .up ∨ p = .deepSleep ∨ p = .tripped)
/-- PLDM Type 5. -/
def whenUpdate (p : Phase) : Bool := decide (p = .up ∨ p = .recovery)

/-! ### MCTP control (R478) -/

/-- An ID that names one endpoint. (PRESUMED, log 91) -/
def execSetEndpointId (eid : Nat) (s : State) : Out :=
  request always s fun s =>
    if 8 ≤ eid ∧ eid ≤ 254 then { s with mgmt := { s.mgmt with eid := eid } }.answer 64 ccOk [eid] else s.answer 64 ccInvalidData []

def execGetEndpointId (s : State) : Out := request always s fun s => s.answer 64 ccOk [s.mgmt.eid]
def execGetEndpointUuid (s : State) : Out := request always s fun s => s.answer 64 ccOk (fitBytes 16 (Config.uuid s.serial))

/-- The base specification is version 1.3; of a message type that is accepted the version is not given here. -/
def execGetMctpVersionSupport (typ : Nat) (s : State) : Out :=
  request always s fun s =>
    if typ = 0 ∨ typ = 0xFF then s.answer 64 ccOk [1, 3]
    else if typ = 1 ∨ typ = 5 then s.used1.answer 64 ccOk [s.free]
    else s.answer 64 ccUnknown []

def execGetMessageTypeSupport (s : State) : Out := request always s fun s => s.answer 64 ccOk [0, 1, 5]

/-! ### Sensors (R480, R481) -/

def execGetPdr (handle : Nat) (s : State) : Out :=
  request whenUp s fun s => s.answer 64 ccOk (Config.pdr s.variant handle)

/-- A reading: an operational state (0 enabled, 2 unavailable) and the value of the last refresh. -/
def execSensorReading (id : Nat) (s : State) : Out :=
  request (if id = 40 ∨ id = 44 then always else whenUp) s fun s =>
    if id = 0 ∨ 44 < id then s.answer 64 ccUnknown []
    else match tget nat0 s.mgmt.sensors id with
    | 0 => s.answer 64 ccOk [2]
    | v + 1 => s.answer 64 ccOk [0, v]

def execSetEventReceiver (eid : Nat) (s : State) : Out :=
  request whenUp s fun s => { s with mgmt := { s.mgmt with receiver := some eid } }.answer 64 ccOk []

/-- Cores that have been retired. -/
def State.retiredCores (s : State) : Nat := (s.cores.filter fun (e : Nat × Core) => e.2.retired).length

/-- The source of a sensor (Table MD-1); none where it is invalid or absent. -/
def State.sensorSource (s : State) (id : Nat) : Option Nat :=
  let up (v : Nat) : Option Nat := if s.phase = .up then some v else none
  let anyValid := (List.range 32).any fun i => s.flag (F.THERM_SENSOR_VALID i)
  if id = 40 then some (s.getF F.ASSAY_BOOT_STATUS_CODE)
  else if id = 44 then some (s.getF F.THERM_TRIP_REC_VALID)
  else if id = 1 then (if anyValid then up (s.getF F.THERM_TJ_TEMP) else none)
  else if id < 34 then (if s.flag (F.THERM_SENSOR_VALID (id - 2)) then up (s.getF (F.THERM_SENSOR_TEMP (id - 2))) else none)
  else match id with
  | 34 => up (s.getF F.REIN_P_FAST_DW)
  | 35 => up (s.getF F.REIN_P_SUST_DW)
  | 36 => up (s.getF F.REIN_FREQ_RUN)
  | 37 => up (s.getF F.REIN_FREQ_ALLOWED)
  | 38 => up (s.getF F.REIN_VCORE_MEAS_MV)
  | 39 => up (s.getF F.REIN_STATUS_REASONS)
  | 41 => up s.ceTotal
  | 42 => up s.ueTotal
  | 43 => up s.retiredCores
  | _ => none

def State.sensorNow (s : State) (id : Nat) : Nat :=
  match s.sensorSource id with
  | some v => v + 1
  | none => 0

/-- Which side of its thresholds sensor 1 is on: 0 below T_THR, 1 above it, 2 at 115 degrees or more. -/
def State.tempBand (s : State) : Nat :=
  match s.sensorSource 1 with
  | none => 0
  | some v => if 2048 ≤ v then 0 else if 4 * 115 ≤ v then 2 else if 4 * s.getF F.THERM_THR_T_THR ≤ v then 1 else 0

/-- What the events of a sensor go by. -/
def State.eventState (s : State) (id : Nat) : Nat :=
  match id with
  | 1 => s.tempBand
  | 40 => if s.phase = .halted then s.getF F.ASSAY_BOOT_STATUS_CODE else 0
  | _ => s.sensorNow id

/-- A happening of R481, from what was and what is. -/
def happens (id old new : Nat) : Bool :=
  match id with
  | 40 => decide (new ≠ 0 ∧ new ≠ old)
  | 42 => decide (old < new)
  | 44 => decide (new = 2 ∧ old ≠ 2)
  | _ => decide (new ≠ old)

def eventSensors : List Nat := [1, 39, 40, 42, 44]

/-- Every 100 ms: the sensors are refreshed, and each sends at most one event. (DEDUCED, log 92) -/
def execSensorRefresh (s : State) : Out :=
  if s.phase = .coldReset then .refused .cannotOccur
  else
    let table := (List.range 45).foldl (fun t i => if i = 0 then t else tset nat0 t i (s.sensorNow i)) s.mgmt.sensors
    let seen := eventSensors.foldl (fun t i => tset nat0 t i (s.eventState i)) s.mgmt.seen
    let sent := if s.mgmt.receiver = none then [] else
      (eventSensors.filter fun i => happens i (tget nat0 s.mgmt.seen i) (s.eventState i)).map fun i => (i, s.eventState i)
    .next { s with mgmt := { s.mgmt with sensors := table, seen := seen, sent := s.mgmt.sent ++ sent } }

/-! ### Effecters (R482) -/

/-- An effecter that writes a register as management does. -/
def effecter (off lo hi v : Nat) (s : State) : Out :=
  request whenUp s fun s =>
    if v < lo ∨ hi < v then s.answer 64 ccInvalidData [] else (s.latch (.mgmtWrite off (BitVec.ofNat 32 v))).answer 64 ccOk []

def execGaitEffecter (v : Nat) (s : State) : Out :=
  if s.phase = .up ∧ v = 3 ∧ s.getF F.REIN_CAP_COOL_B = 0 then
    .next ((s.raise F.REIN_STATUS_GAIT_REJECT).answer 64 ccInvalidData [])
  else effecter 0x20000 0 3 v s
def execPlSustEffecter (v : Nat) (s : State) : Out := effecter 0x20008 60 310 v s
def execPlFastEffecter (v : Nat) (s : State) : Out := effecter 0x2000C 60 372 v s
def execWindowEffecter (v : Nat) (s : State) : Out := effecter 0x20010 1 60 v s
def execHostLimitEffecter (v : Nat) (s : State) : Out := effecter 0x20014 400 1150 v s

/-- Effecter 6: a device reset at once. -/
def execResetEffecter (s : State) : Out := request whenUp s fun s => s.deviceReset.answer 64 ccOk []

/-- Effecter 7: RAS_CMD RESET of 256 * DTYPE + INST. -/
def execDomainResetEffecter (v : Nat) (s : State) : Out :=
  request whenUp s fun s =>
    if 2048 ≤ v then s.answer 64 ccInvalidData [] else (s.latch (.rasCmd 1 (v / 256) (v % 256))).answer 64 ccOk []

/-- Effecter 8: how a request that is not accepted is answered is open. -/
def execSleepEffecter (s : State) : Out :=
  request whenUp s fun s =>
    if s.syncState ≠ 0 then (s.used1.raise F.REIN_STATUS_WRITE_REJECT).answer 64 s.free [] else s.sleep.answer 64 ccOk []

/-- Effecter 9. -/
def execWakeEffecter (s : State) : Out := request whenAsleep s fun s => s.wakeUp.answer 64 ccOk []

/-- Effecter 10: in deep sleep and after a trip no snapshot comes, and the timer is written at once.
(DEDUCED, log 52) -/
def execWakeTimerEffecter (v : Nat) (s : State) : Out :=
  request whenAsleep s fun s =>
    if 2 ^ 32 ≤ v then s.answer 64 ccInvalidData []
    else if s.phase = .up then (s.latch (.mgmtWrite 0x20044 (BitVec.ofNat 32 v))).answer 64 ccOk []
    else (s.wr 0x20044 (BitVec.ofNat 32 v)).answer 64 ccOk []

/-- The register of an effecter. -/
def effecterReg (id : Nat) : Option Nat :=
  match id with
  | 1 => some 0x20000
  | 2 => some 0x20008
  | 3 => some 0x2000C
  | 4 => some 0x20010
  | 5 => some 0x20014
  | 10 => some 0x20044
  | _ => none

/-- The value that waits for the snapshot. -/
def State.pendingValue (s : State) (off : Nat) : Option Nat :=
  s.events.foldl (fun m e => match e with
    | .mgmtWrite o v => if o = off then some v.toNat else m
    | _ => m) none

/-- GetEffecterValue: whether an update is pending (0) or not (1), the pending value and the present one. -/
def execGetEffecterValue (id : Nat) (s : State) : Out :=
  request (if id = 9 ∨ id = 10 then whenAsleep else whenUp) s fun s =>
    match effecterReg id with
    | some off =>
      let now := (s.rd off).toNat
      (match s.pendingValue off with
       | some v => s.answer 64 ccOk [0, v, now]
       | none => s.answer 64 ccOk [1, now, now])
    | none => if 6 ≤ id ∧ id ≤ 9 then s.answer 64 ccOk [1, 0, 0] else s.answer 64 ccUnknown []

/-! ### Firmware update (R483 to R485) -/

/-- Component identifiers in the order of a set's offsets: stage 1, Teamster microcode, vector microcode, DRT. -/
def compOrder : List Nat := [1, 3, 4, 2]

/-- Where the update flow puts the images of a set. -/
def updOffs : List Nat := [0, 0x28000, 0x39000, 0x4A000]

/-- The largest image of a component, header and body. -/
def compSize (c : Nat) : Nat :=
  match c with
  | 1 => 0x28000
  | 2 => 0x801000
  | _ => 0x11000

/-- The set that the directory's ACTIVE does not name. -/
def State.spareSet (s : State) : Nat :=
  match s.directory with
  | some (_, d) => 1 - d.active
  | none => 0

def State.setUpd (s : State) (x : Update) : State := { s with mgmt := { s.mgmt with upd := x } }

/-- A live DRT update is under way. -/
def State.liveBusy (s : State) : Bool :=
  decide (s.getF F.HOSTCORE_LIVE_STATUS_STATE = 1 ∨ s.getF F.HOSTCORE_LIVE_STATUS_STATE = 2)

def execRequestUpdate (s : State) : Out :=
  request whenUpdate s fun s =>
    if s.mgmt.upd.stage ≠ 0 ∨ s.liveBusy = true then s.answer 64 ccInUpdate [] else (s.setUpd { stage := 1 }).answer 64 ccOk []

/-- The device takes the component that a header announces; while recovery awaits an image, stage 1 alone. -/
def State.compOk (s : State) (c : Nat) (h : List Nat) : Bool :=
  let rec_ := match s.minRecord with
    | some (_, _, v) => v
    | none => 0
  decide (c ∈ compOrder ∧ 0 < s.variant ∧ le h 7 1 / 2 ^ (s.variant - 1) % 2 = 1 ∧ s.effMinver ≤ hdrVersion h ∧
    (c = 1 → rec_ ≤ le h 0x0C 4) ∧ (s.awaiting = true → c = 1))

/-- A request of the update flow that needs a stage of it. -/
def updating (lo hi : Nat) (s : State) (act : State → State) : Out :=
  request whenUpdate s fun s =>
    if s.mgmt.upd.stage = 0 then s.answer 64 ccUnknown []
    else if s.mgmt.upd.stage < lo ∨ hi < s.mgmt.upd.stage then s.answer 64 ccState []
    else act s

/-- PassComponentTable: 0 says that the component can be updated, 1 that it is not supported. -/
def execPassComponentTable (c : Nat) (h : List Nat) (s : State) : Out :=
  updating 1 2 s fun s =>
    if s.compOk c h then (s.setUpd { s.mgmt.upd with stage := 2 }).answer 64 ccOk [0] else s.answer 64 ccOk [1]

def execUpdateComponent (c : Nat) (h : List Nat) (s : State) : Out :=
  updating 2 3 s fun s =>
    if s.compOk c h = false then s.answer 64 ccOk [1]
    else (s.setUpd { stage := 3, comps := s.mgmt.upd.comps.filter (fun (e : Nat × Nat) => e.1 ≠ c) ++ [(c, 0)] }).answer 64 ccOk [0]

/-- Bytes of an image received: into the set that is not active, or in recovery into the stage 1 window.
(DEDUCED, log 93) -/
def execFirmwareTransfer (c off : Nat) (b : List Nat) (s : State) : Out :=
  updating 3 3 s fun s =>
    if 512 < b.length then s.answer 64 ccLength []
    else if c ∉ s.mgmt.upd.comps.map (·.1) then s.answer 64 ccState []
    else if compSize c < off + b.length then s.answer 64 ccRange []
    else
      let s1 := s.setUpd { s.mgmt.upd with comps := s.mgmt.upd.comps.map fun (e : Nat × Nat) => if e.1 = c then (c, max e.2 (off + b.length)) else e }
      let put : State := s1.putFlash (setBase s.spareSet + updOffs.getD (compOrder.idxOf c) 0 + off) b
      let s2 := if s.awaiting then s1.putWindow off b else { put with aon := { put.aon with wake := none } }
      s2.answer 64 ccOk []

/-- The components that were not offered are copied from the active set. -/
def State.fillSet (s : State) : State :=
  match s.directory with
  | none => s
  | some (_, d) =>
    (numbered 0 compOrder).foldl (fun u (e : Nat × Nat) =>
      if e.2 ∈ s.mgmt.upd.comps.map (·.1) then u
      else
        let (h, b) := s.readImage (setBase d.active + (d.offs.getD d.active []).getD e.1 0)
        u.putFlash (setBase s.spareSet + updOffs.getD e.1 0) (h ++ b)) s

/-- Every image of the set passes R396. -/
def State.setPasses (s : State) : Bool :=
  (numbered 0 compOrder).all fun (e : Nat × Nat) =>
    let (h, b) := s.readImage (setBase s.spareSet + updOffs.getD e.1 0)
    decide (s.imageCode e.2 s.effMinver h b false = none)

/-- VerifyComplete: in recovery the stage 1 image in the window is checked and run; else the whole set. An update that
fails ends. -/
def execVerifyComplete (s : State) : Out :=
  updating 3 3 s fun s =>
    if s.awaiting then
      let s1 := (s.setUpd {}).verifyWindow
      s1.answer 64 (if s1.getF F.ASSAY_RECOV_STATUS_STATE = 3 then ccOk else ccError) []
    else
      let s1 := s.fillSet
      if s1.setPasses then (s1.setUpd { s1.mgmt.upd with stage := 4 }).answer 64 ccOk [] else (s1.setUpd {}).answer 64 ccError []

def execApplyComplete (s : State) : Out :=
  updating 4 4 s fun s => (s.setUpd { s.mgmt.upd with stage := 5 }).answer 64 ccOk []

/-- A directory copy that makes a set ACTIVE, its images at the places of the update flow. -/
def State.makeActive (s : State) (set : Nat) : State :=
  let old : List (List Nat) := match s.directory with
    | some (_, d) => d.offs
    | none => [updOffs, updOffs]
  s.writeDirectory set ((List.range 2).map fun i => if i = set then updOffs else old.getD i [])

/-! ### The live update of the DRT (R486, R487) -/

def State.liveRefuse (s : State) (reason : Nat) : State :=
  (s.setF F.HOSTCORE_LIVE_STATUS_STATE 3).setF F.HOSTCORE_LIVE_STATUS_REASON reason

/-- The running DRT. -/
def State.drt (s : State) : Image := (s.assay.images[3]?).getD {}

/-- Copy the verified DRT into the live area, check it and lock its text. (DEDUCED, log 93) -/
def State.liveLoad (s : State) : State :=
  let set := s.spareSet
  let (h, b) := s.readImage (setBase set + updOffs.getD 3 0)
  let load := le h 0x14 4
  let (lo, len) := s.liveArea
  if load < lo ∨ lo + len < load + le h 0x10 4 ∨ meets (hostMem + lo) len s.drt.text s.drt.len = true then s.liveRefuse rLengthBounds
  else if s.imageCode 2 s.effMinver h b false ≠ none then s.liveRefuse rIntegrity
  else
    let im : Image := { digest := hdrDigest h, version := hdrVersion h, text := hostMem + load, len := le h 0x1C 4 }
    let s1 := s.stBytes (hostMem + load) b
    let s2 := ((s1.setF F.HOSTCORE_LIVE_STATUS_STATE 1).setF F.HOSTCORE_LIVE_STATUS_REASON 0).setF F.HOSTCORE_LIVE_STATUS_MOVED 0
    { s2 with hcore := { s2.hcore with next := some im, nextSet := set } }.latch (.live 1 0)

/-- ActivateFirmware. With self-contained activation a new DRT is loaded live, and the directory waits for COMMIT. -/
def execActivateFirmware (selfContained : Bool) (s : State) : Out :=
  updating 5 5 s fun s =>
    let drt : Bool := decide (2 ∈ s.mgmt.upd.comps.map (·.1))
    let s1 := s.setUpd {}
    if selfContained && drt && decide (s.phase = .up) then s1.liveLoad.answer 64 ccOk []
    else
      let s2 := s1.makeActive s.spareSet
      if s.phase = .recovery then ((s2.setF F.ASSAY_RECOV_STATUS_STATE 4).setF F.ASSAY_BOOT_STATUS_CODE 0x0E).answer 64 ccOk []
      else s2.answer 64 ccOk []

/-- CancelUpdate. -/
def execUpdateCancel (s : State) : Out := updating 1 5 s fun s => (s.setUpd {}).answer 64 ccOk []

/-- A write of HOSTCORE_LIVE_CMD: ignored where `ok` fails. -/
def liveCmd (port : Port) (s : State) (ok : Bool) (act : State → State) : Out :=
  hostWrite port s fun s => if ok then act s else s.raise F.HOSTCORE_LIVE_STATUS_WRITE_REJECT

/-- LOAD: a DRT component has been verified, and no live update is under way. -/
def execLiveLoad (port : Port) (s : State) : Out :=
  liveCmd port s (decide (4 ≤ s.mgmt.upd.stage) && decide (2 ∈ s.mgmt.upd.comps.map (·.1)) && !s.liveBusy) State.liveLoad

def State.loadedLive (s : State) : Bool := decide (s.getF F.HOSTCORE_LIVE_STATUS_STATE = 2)

/-- MOVE of an existing partition. -/
def execLiveMove (port : Port) (p : Nat) (s : State) : Out :=
  liveCmd port s (s.loadedLive && decide (p < 8) && (s.part p).live) fun s => s.latch (.live 2 p)

/-- The live update is over. (DEDUCED, log 93) -/
def State.liveEnd (s : State) : State :=
  let s1 := (s.setF F.HOSTCORE_LIVE_STATUS_STATE 0).setF F.HOSTCORE_LIVE_STATUS_MOVED 0
  { s1 with hcore := { s1.hcore with next := none } }

/-- COMMIT: every existing partition has moved. The old text is unlocked and the directory written. -/
def execLiveCommit (port : Port) (s : State) : Out :=
  liveCmd port s (s.loadedLive && (List.range 8).all fun p => !(s.part p).live || decide (s.getF F.HOSTCORE_LIVE_STATUS_MOVED / 2 ^ p % 2 = 1))
    fun s => s.liveEnd.makeActive s.hcore.nextSet

/-- The running DRT's place among the images. -/
def State.setDrt (s : State) (im : Image) : State := { s with assay := { s.assay with images := s.assay.images.take 3 ++ [im] } }

/-- ABORT: nothing has moved. The new text is unlocked, and the old DRT is the Hallmark's again. -/
def execLiveAbort (port : Port) (s : State) : Out :=
  liveCmd port s (s.liveBusy && decide (s.getF F.HOSTCORE_LIVE_STATUS_MOVED = 0)) fun s =>
    match s.loadedLive, s.hcore.next with
    | true, some old => (s.setDrt old).liveEnd
    | _, _ => s.liveEnd

/-- At the snapshot: the new text is locked and the Hallmark's; or a partition has moved. -/
def State.liveApply (s : State) (op p : Nat) : State :=
  match op with
  | 1 =>
    (match decide (s.getF F.HOSTCORE_LIVE_STATUS_STATE = 1), s.hcore.next with
     | true, some im =>
       let old := s.drt
       let s1 := (s.setDrt im).setF F.HOSTCORE_LIVE_STATUS_STATE 2
       { s1 with hcore := { s1.hcore with next := some old } }
     | _, _ => s)
  | _ =>
    if s.loadedLive then s.setF F.HOSTCORE_LIVE_STATUS_MOVED (Nat.lor (s.getF F.HOSTCORE_LIVE_STATUS_MOVED) (2 ^ p)) else s

end Sys2Proof.Machine
end

