-- ==== Sys2Proof/Machine/TickEdge.lean ====
section
/-!
DEFINITION. The tick edge: where it may fall, the snapshot applied class by class, and the edge processing that
admits the work of the tick (R36 to R47, R52 to R57, R82, R85, R270, R347, R494).
-/
namespace Sys2Proof.Machine

/-! ### Where the edge falls, and its number (R36, R52, R54, R56) -/

/-- The first edge, by the source: its number where it may fall at `now`. (DEDUCED, log 63) -/
def State.firstEdge (s : State) (now : Nat) : Option Int :=
  let p := s.pace
  let tp := 1000 * p.tp
  match s.getF F.PACE_CTRL_SOURCE with
  | 0 => if now = p.edge + tp then some (match p.used with
      | some n => (n : Int) + 1
      | none => 0) else none
  | 1 =>
    (match p.ready with
     | some t => if t + 100000 ≤ now ∧ now < t + 100000 + tp ∧ ((now : Int) - s.origin) % (tp : Int) = 0 then some (s.edgeNumber now) else none
     | none => none)
  | _ => if p.accepted = some now then some (s.edgeNumber now) else none

/-- How far a later edge may lie from one period after the last: at most 100 ns toward the reference. -/
def slewOk (slew d : Int) : Bool :=
  decide (d.natAbs ≤ 100 ∧ d.natAbs ≤ slew.natAbs ∧ ((0 ≤ slew ∧ d ≤ 0) ∨ (slew ≤ 0 ∧ 0 ≤ d)))

/-- The displacement of a later edge, where it may fall at `now`. (DEDUCED, log 63) -/
def State.nextSlew (s : State) (now : Nat) : Option Int :=
  let d : Int := (now : Int) - (s.pace.edge + 1000 * s.pace.tp : Nat)
  if s.getF F.PACE_CTRL_SOURCE = 0 then (if d = 0 then some 0 else none) else if slewOk s.pace.slew d then some d else none

/-! ### Writes that take effect at the snapshot -/

def isRein (off : Nat) : Bool := decide (off ∈ [0x20000, 0x20008, 0x2000C, 0x20010, 0x20014])

/-- RAS_GUARD_p: TOLF 0 and MODE 0b11 leave their fields unchanged (R461, R477). -/
def State.guardApply (s : State) (p : Nat) (v : W32) : State :=
  let s1 := if newF v (F.RAS_GUARD_TOLF p) = 0 then s else s.setF (F.RAS_GUARD_TOLF p) (newF v (F.RAS_GUARD_TOLF p))
  if newF v (F.RAS_GUARD_MODE p) = 3 then s1 else s1.setF (F.RAS_GUARD_MODE p) (newF v (F.RAS_GUARD_MODE p))

/-- A CFG write of class 4 or 5. (DEDUCED, log 52) -/
def State.cfgApply (s : State) (k now off : Nat) (v : W32) : State :=
  if isRein off then s.reinApply off v
  else if off = 0x20044 then s.wr off v
  else if off = 0x600110 then (match newF v F.FAB_JOB_CMD_OP with
    | 1 => s.joinApply
    | 2 => s.leaveApply k now
    | _ => s)
  else if off = 0x60011C then s.jobTpApply v
  else if 0x200100 ≤ off ∧ off < 0x200180 then s.hshareApply off v
  else if 0x800010 ≤ off ∧ off < 0x800030 then s.guardApply ((off - 0x800010) / 4) v
  else s.portWrite off v

/-! ### The classes of Table PT-1 -/

/-- The partition that a mailbox operation concerns, from 1; 0 where it concerns the device. -/
def mboxIndex (op : Nat) (a : List Nat) : Nat := if op < 0x20 then 1 + a.getD 0 0 else 0

/-- Class and source index of an event. Frame-ready events and the writes of a ring's own events are taken apart from
the rest. (DEDUCED, log 35) (DEDUCED, log 66) -/
def State.evPlace (s : State) (e : Ev) : Nat × Nat :=
  match e with
  | .coreFault k => (2, s.logicalOf k)
  | .rasCmd _ d i => (2, 256 * d + i)
  | .fenceReport d i _ => (2, 256 * d + i)
  | .retire n => (2, n)
  | .deviceReset => (2, 2048)
  | .pairFail _ => (2, 0)
  | .sliceLost t => (2, 512 + t)
  | .ptpLost => (2, 0)
  | .fabReport => (2, 0)
  | .jtagAttach => (3, 0)
  | .jtagDetach => (3, 0)
  | .pfOpen _ => (3, 0)
  | .pfClose => (3, 0)
  | .mbox op a => (3, mboxIndex op a)
  | .live op p => (3, if op = 1 then 0 else 1 + p)
  | .tdi v _ => (3, 1 + (s.vfPart v).getD 8)
  | .mgmtWrite _ _ => (4, 0)
  | .kvCmd _ _ _ => (5, 0)
  | .kvPush _ _ _ => (5, 0)
  | .kvConfig _ _ _ => (5, 0)
  | .tally _ _ _ _ _ => (5, 0)
  | .stab _ _ _ _ => (5, 0)
  | .ringEnable _ _ => (5, 0)
  | .ringAbort r _ => (5, r + 1)
  | .pload _ => (5, 0)
  | .cfgWrite _ _ => (5, 0)
  | .visCmd _ _ => (5, 0)
  | .ctxLive _ _ _ => (5, 0)
  | .fabMsg seq _ _ _ _ => (6, seq)
  | .fabArrive _ => (6, 0)
  | .frameReady n _ _ _ _ _ => (7, n)
  | .timer n => (8, n)

/-- The sequence number of the first fabric message among the events: the others are counted from it, modulo 2^32. -/
def seqBase (l : List Ev) : Nat :=
  (l.findSome? fun e => match e with
    | .fabMsg seq _ _ _ _ => some seq
    | _ => none).getD 0

/-- What orders the events of one class (R39): the source index; frames of one context by their number, the oldest first;
fabric messages by sequence number, as it wraps (R362). -/
def State.evKey (s : State) (base : Nat) (e : Ev) : Nat :=
  match e with
  | .fabMsg seq _ _ _ _ => 1 + (cdiff seq base + 2 ^ 31) % 2 ^ 32
  | .frameReady n num _ _ _ _ => n * 2 ^ 32 + (2 ^ 32 - 1 - cdiff (s.cx n 12 63 32) num)
  | _ => (s.evPlace e).2

/-- The events of one class in that order, and in that of arrival where it does not tell. -/
def State.ofClass (s : State) (c : Nat) (l : List Ev) : List Ev :=
  sortBy (s.evKey (seqBase l)) (l.filter fun e => (s.evPlace e).1 == c)

/-- The FLR of a VF clears EN of its rings once the abort is applied. (DEDUCED, log 39) -/
def State.ringAbortApply (s : State) (r reason : Nat) : State :=
  let s1 := s.abortRing r reason
  if reason = rFence then s1.setF (ringF r 1 31 1) 0 else s1

/-- Apply one event at edge `k`. A device reset leaves nothing for later events to act on. -/
def State.applyEv (k now : Nat) (s : State) (e : Ev) : State :=
  if s.phase ≠ .up then s
  else match e with
  | .coreFault _ => s
  | .rasCmd op d i => s.rasApply op d i
  | .fenceReport d i ws => s.recordReport d i ws
  | .retire n => s.retireApply n
  | .deviceReset => s.deviceReset
  | .pairFail p => s.pairLost p
  | .sliceLost t => s.sliceLost t
  | .ptpLost => s
  | .fabReport => s
  | .jtagAttach => s.attachApply
  | .jtagDetach => s.detachApply
  | .pfOpen scope => s.openApply scope
  | .pfClose => s.closeApply
  | .mbox op a => s.mboxApply op a
  | .live op p => s.liveApply op p
  | .tdi v st => s.tdiApply v st
  | .mgmtWrite off v => s.cfgApply k now off v
  | .cfgWrite off v => s.cfgApply k now off v
  | .kvCmd p op x => if op = 1 then s.kvActivate p x else s.kvRelease p x
  | .kvPush p sz frame => s.kvPush p sz frame
  | .kvConfig p off v => s.kvConfig p off v
  | .tally t op c a0 a1 => s.tallyApply t op c a0 a1
  | .stab op p first count => s.stabApply op p first count
  | .ringEnable r v => s.applyEnable r v
  | .ringAbort r reason => s.ringAbortApply r reason
  | .pload p => s.ploadApply p
  | .visCmd op n => if op = 1 then s.activateApply n else s.deactivateApply n
  | .ctxLive n d v => s.ctxLiveApply n [(d, v)]
  | .fabMsg _ src typ arg payload => s.fabMsgApply k src typ arg payload
  | .fabArrive tick => s.arrival tick s.fid
  | .frameReady _ _ _ _ _ _ => s
  | .timer n => s.setF (F.PACE_TMR_CTRL_FIRED n) 1

/-! ### Class 5 -/

/-- Live writes of context `n` among the events. -/
def liveOf (n : Nat) (l : List Ev) : List (Nat × W32) :=
  l.filterMap fun e => match e with
    | .ctxLive m d v => if m = n then some (d, v) else none
    | _ => none

/-- CFG writes in order of arrival; those of one context's live fields are judged together. -/
def State.applyWrites (k now : Nat) : List Ev → List Nat → State → State
  | [], _, s => s
  | e :: l, seen, s =>
    match e with
    | .ctxLive n d v =>
      if n ∈ seen ∨ s.phase ≠ .up then State.applyWrites k now l seen s
      else State.applyWrites k now l (n :: seen) (s.ctxLiveApply n ((d, v) :: liveOf n l))
    | _ => State.applyWrites k now l seen (s.applyEv k now e)

/-- Rings with descriptors that no earlier snapshot took up. -/
def State.rungRings (s : State) : List Nat := (s.rings.filter fun (e : Nat × Ring) => !e.2.taken.isEmpty).map (·.1)

/-- Ring `r`: its doorbell, and then its aborts. -/
def State.applyRingEvents (k now : Nat) (l : List Ev) (s : State) (r : Nat) : State :=
  let abort := l.findSome? fun e => match e with
    | .ringAbort q reason => if q = r then some reason else none
    | _ => none
  let s1 := if s.phase = .up then s.applyRing r abort else s
  (l.filter fun e => match e with
    | .ringAbort q _ => q == r
    | _ => false).foldl (State.applyEv k now) s1

def isAbort (e : Ev) : Bool :=
  match e with
  | .ringAbort _ _ => true
  | _ => false

def abortRings (l : List Ev) : List Nat :=
  l.filterMap fun e => match e with
    | .ringAbort r _ => some r
    | _ => none

/-- Class 5: CFG writes, then each ring in ascending order. -/
def State.applyClass5 (k now : Nat) (l : List Ev) (s : State) : State :=
  let s1 := State.applyWrites k now (l.filter fun e => !isAbort e) [] s
  let rs := sortBy id ((s1.rungRings ++ abortRings l).eraseDups)
  rs.foldl (State.applyRingEvents k now l) s1

/-! ### Class 7 (R39, R347) -/

/-- Apply frame-ready events in order: up to 255 of a context, and those whose ring has room; the rest stay latched. -/
def State.applyFrames : List Ev → List Nat → State → State
  | [], _, s => s
  | e :: l, taken, s =>
    match e with
    | .frameReady n num fb slot0 slot1 conc =>
      if s.phase ≠ .up then State.applyFrames l taken s
      else if 255 ≤ (taken.filter (· == n)).length then State.applyFrames l taken (s.latch e)
      else (match s.frameReadyApply n num fb slot0 slot1 conc with
        | some t => State.applyFrames l (n :: taken) t
        | none => State.applyFrames l taken ((s.addF F.DISP_FRAME_HELD_COUNT 1).latch e))
    | _ => State.applyFrames l taken s

/-! ### Budget and overrun (R44, R46, R47) -/

/-- Cycles that the running jobs have spent since the last edge, by logical core. -/
def State.spend (s : State) (spent : List (Nat × Nat)) : State :=
  spent.foldl (fun u e => match u.slotOf e.1 with
    | some k => u.modCore k fun c => if c.job.isSome then { c with jobSpent := c.jobSpent + e.2, ran := c.ran + e.2 } else c
    | none => u) s

/-- Jobs with unfinished work on a core. -/
def Core.held (c : Core) : List Nat :=
  (match c.job with
   | some i => [i]
   | none => []) ++ c.jobQ

/-- C_c of a core for a budget `b`. -/
def State.carryCost (s : State) (c : Core) (b : Nat) : Nat :=
  sumNat (c.held.map fun i => max ((s.job i).cost - (if c.job = some i then c.jobSpent else 0)) (b / 50))

/-- The budget of logical core `n`, and what it carries into the tick. -/
def State.budgetCore (b : Nat) (s : State) (n : Nat) : State :=
  match s.slotOf n with
  | none => s
  | some k =>
    let c := s.core k
    let x := s.carryCost c b
    { s.setCore k { c with carry := c.held, carryCost := x, ran := 0, excess := 0 } with
      budget := tset int0 s.budget n ((b : Int) - x - c.excess) }

/-- Logical cores that hold unfinished work at the edge. -/
def State.overrunCores (s : State) : List Nat :=
  (List.range 64).filter fun n => match s.slotOf n with
    | some k => !(s.core k).held.isEmpty
    | none => false

/-- Record the overrun of tick `k`, the last before this edge. (DEDUCED, log 64) -/
def State.noteOverrun (s : State) (k : Nat) : State :=
  let l := s.overrunCores
  if l = [] then s
  else
    let jobs := l.flatMap fun n => match s.slotOf n with
      | some i => (s.core i).held
      | none => []
    let s1 := { s with jobs := s.jobs.map fun (e : Nat × Job) => (e.1, if e.1 ∈ jobs then { e.2 with overrun := true } else e.2) }
    let s2 := (s1.addF F.PACE_OVR_COUNT_COUNT 1).setF F.PACE_OVR_LAST_TICK (k % 2 ^ 32)
    let bit (lo : Nat) (f : Fld) (t : State) : State :=
      t.setF f ((l.filter fun n => lo ≤ n ∧ n < lo + 32).foldl (fun m n => Nat.lor m (2 ^ (n - lo))) (t.getF f))
    bit 32 F.PACE_OVR_CORE_HI_CORE (bit 0 F.PACE_OVR_CORE_LO_CORE s2)

/-- B, and the budget of every core. -/
def State.budgets (s : State) : State :=
  let b := budgetAt s.pace.tp s.runF
  (List.range 64).foldl (State.budgetCore b) ({ s with budget := [] }.setF F.PACE_BUDGET_B b)

/-- Throttle reasons of the tick enter the records of the jobs admitted (R439). -/
def State.markThrottle (s : State) : State :=
  { s with jobs := s.jobs.map fun (e : Nat × Job) =>
      (e.1, if e.2.admitted then { e.2 with throttle := Nat.lor e.2.throttle s.rein.inTick } else e.2) }

/-! ### Gating of Teams (R82, R85) -/

/-- Every core of the Team is idle, and no work has been given to it. -/
def State.teamIdle (s : State) (t : Nat) : Bool :=
  (List.range 8).all fun i => match s.slotOf (8 * t + i) with
    | some k => s.coreIdle k (8 * t + i) && (s.core k).jobQ.isEmpty
    | none => true

def Team.still (x : Team) : Bool := x.eq.isEmpty && x.fq.isEmpty && x.actE.isNone && x.actF.isNone

def State.gateTeam (ended : Bool) (s : State) (t : Nat) : State :=
  if s.teamPresent t = false ∨ (s.fence 1 t).closed then s
  else
    let x := s.team t
    let st := s.getF (F.TEAM_PWR_STATUS_STATE t)
    let mode := s.getF (F.TEAM_PWR_CTRL_MODE t)
    let quiet := s.teamIdle t && x.still && !x.busySeen && !x.sliceSeen && !x.heldReq
    let n := if quiet && ended then x.idleTicks + 1 else 0
    let gate : Bool := decide (st = 0) &&
      (decide (mode = 1 ∧ s.getF (F.TEAM_PWR_CTRL_IDLE_TICKS t) ≤ n ∧ 0 < n) || (decide (mode = 2) && s.teamIdle t && x.still && !x.busySeen && !x.heldReq))
    let s1 := s.modTeam t fun x => { x with busySeen := false, sliceSeen := false, idleTicks := if gate then 0 else n }
    if gate then s1.setF (F.TEAM_PWR_STATUS_STATE t) 3
    else if mode = 0 ∧ st = 1 then (s1.setF (F.TEAM_PWR_STATUS_STATE t) 2).addF (F.TEAM_WAKE_COUNT_COUNT t) 1
    else s1

/-! ### Profiling (R494) -/

/-- The counters of a profile record, in its order. -/
def profCounters (k : Nat) : List Nat :=
  [(F.MX_ACTIVE_CYC_CYCLES k).off, (F.MX_VALID_SLOTS_SLOTS k).off, (F.MX_BUBBLE_WEIGHT_SLOTS k).off, (F.MX_BUBBLE_STARVE_SLOTS k).off,
   (F.MX_BUBBLE_DRAIN_SLOTS k).off, (F.MX_BUBBLE_ALIGN_SLOTS k).off, (F.CR_SAT_COUNT_ELEMENTS k).off, (F.VEC_BUNDLES_COUNT k).off,
   (F.VEC_HELD_CYC_CYCLES k).off, (F.VEC_WIN_CYC_CYCLES k).off, (F.CS_CONFLICT_COUNT k).off, (F.NOC_IN_CYC_CYCLES k).off]

/-- A counter's increase since the last edge. -/
def State.profDelta (s : State) (off : Nat) : Nat := min (2 ^ 32 - 1) ((s.rd off).toNat - tget prof0 s.profBase off).toNat

/-- The record of logical core `n` in slot `k`. BUDGET_LEFT is a free value up to the core's budget.
(DESIGN CHOICE, log 15) -/
def State.profRecord (s : State) (k n : Nat) : List Nat :=
  let left := s.free % ((tget int0 s.budget n).toNat + 1)
  leBytes 4 (s.tick % 2 ^ 32) ++ leBytes 4 n ++
    ((profCounters k).map s.profDelta ++ [min (2 ^ 32 - 1) (tget nat0 s.rein.lost (n / 8)), min (2 ^ 32 - 1) left]).flatMap (leBytes 4)

/-- The ring lies within the usable range of GDDR6. -/
def State.profOk (s : State) (base log2 : Nat) : Bool := decide (base + 64 * 2 ^ log2 ≤ s.gddrTop)

def State.profBaseAddr (s : State) : Nat := s.getF F.PROF_BASE_HI_ADDR * 2 ^ 32 + s.getF F.PROF_BASE_LO_ADDR * 64

def State.profCore (s : State) (n : Nat) : State :=
  match s.slotOf n with
  | none => s
  | some k =>
    let a := s.profBaseAddr + 64 * (s.profNext % 2 ^ s.getF F.PROF_CTRL_LOG2)
    let s1 := ((s.stBytes a (s.profRecord k n)).ueClear a 64).used1.addF F.PROF_WRITTEN_COUNT 1
    { s1 with profNext := (s1.profNext + 1) % 2 ^ 20 }

/-- The records of the tick that ends; the shadow copies start anew. (DEDUCED, log 94) -/
def State.profile_ (s : State) : State :=
  let s1 := if s.flag F.PROF_CTRL_ENABLE ∧ s.profOk s.profBaseAddr (s.getF F.PROF_CTRL_LOG2) = true then (List.range 64).foldl State.profCore s else s
  { s1 with profBase := (List.range 72).foldl (fun t k => (profCounters k).foldl (fun u off => tset prof0 u off ((s1.rd off).toNat : Int)) t) [] }

/-! ### The edge -/

def State.setTick (s : State) (k : Nat) : State :=
  (s.setF F.PACE_TICK_LO_TICK (k % 2 ^ 32)).setF F.PACE_TICK_HI_TICK (k / 2 ^ 32 % 2 ^ 32)

/-- PACE_OUT drives a pulse at each edge. -/
def State.pulse (s : State) : State :=
  if s.flag F.PACE_CTRL_PACE_OUT_EN then s.setPace fun p => { p with pulses := p.pulses + 1 } else s

/-- The edge at which ticking stops: no snapshot is taken (R57). (DEDUCED, log 65) -/
def State.stopEdge (s : State) (now : Nat) : State :=
  (s.pulse.setPace fun p => { p with ticking := false, stopping := false, edge := now, slew := 0, ready := none, stepHold := false }).paceShow

/-- A first edge whose number is used already: the start is refused (R56). -/
def State.refuseStart (s : State) : State :=
  (((s.setF F.PACE_CTRL_ENABLE 0).setPace fun p => { p with waiting := false, ready := none }).paceReject).paceShow

def isReport (e : Ev) : Bool :=
  match e with
  | .fenceReport _ _ _ => true
  | _ => false

/-- The reports of the fences that class 2 itself has closed are events of that class, recorded with it. (DEDUCED, log 110) -/
def State.reportClosed (s : State) (k now : Nat) : State :=
  (s.ofClass 2 (s.events.filter isReport)).foldl (State.applyEv k now) { s with events := s.events.filter fun e => !isReport e }

/-- Classes 1 to 4 and the domains that reopen; tick `k` is open from here on. -/
def State.snapshotA (s : State) (k now : Nat) (busy : List (Nat × Nat)) (l : List Ev) : State :=
  let s1 := (s.retune now).profile_.setTick k
  let s2 := ((s1.reviseSust now).publishPower).reopen busy
  let s3 := ((s.ofClass 2 (s2.retiring ++ l)).foldl (State.applyEv k now) s2).reportClosed k now
  let s4 := (s3.ofClass 3 l).foldl (State.applyEv k now) s3
  (s4.ofClass 4 l).foldl (State.applyEv k now) s4

/-- Classes 5 to 8. The clock follows what classes 4 and 5 leave written together: of two writes of one register, the
later one stands (R435). -/
def State.snapshotB (s : State) (k now : Nat) (l : List Ev) : State :=
  let s0 := s.edgeObjs.importDone
  let s1 := ((State.applyClass5 k now (s0.ofClass 5 l) s0).retune now).showAllowed
  let s2 := (s1.ofClass 6 l).foldl (State.applyEv k now) s1
  let s3 := if s2.fab.timedOut then s2.barrierFault now else s2
  let s4 := s3.fabEdge k now
  let s5 := State.applyFrames (s4.ofClass 7 l) [] s4
  (s5.ofClass 8 l).foldl (State.applyEv k now) s5

/-- Edge processing once the snapshot has been applied; `last` is the tick before this one. Work is unfinished (R46) as it
stands after the snapshot, its fences included. (DEDUCED, log 66) (DEDUCED, log 67) (DEDUCED, log 64) -/
def State.process (s : State) (last : Option Nat) (ended : Bool) : State :=
  let s1 := s.edgeObjs.importDone.drained.placementDecide
  let s2 := ((match last with
    | some k => s1.noteOverrun k
    | none => s1).budgets).markThrottle
  let s3 := (List.range 8).foldl (State.gateTeam ended) s2.admitAll
  let s4 := s3.audit s3.pace.edge
  if s4.phase ≠ .up then s4 else s4.noteHallmark.answerHallmarks.setRein fun r => { r with inTick := r.mask }

/-- Requests count against the gating of a Team from here on, where they are of this snapshot (R85). -/
def State.askAnew (s : State) : State := (List.range 8).foldl (fun u t => u.modTeam t fun x => { x with busySeen := false }) s

/-- A tick edge with its snapshot, at `now`, with number `k`; `ended` says that a tick ends here. (DEDUCED, log 65) -/
def State.edgeAt (s : State) (k now : Nat) (d : Int) (ended : Bool) (spent busy : List (Nat × Nat)) : State :=
  let l := s.events
  let s0 := (s.askAnew.pulse.spend spent).setPace fun p => { p with
    waiting := false, ticking := true, edge := now, slew := p.slew + d, used := some k, tp := s.getF F.PACE_PERIOD_TP_US, ready := none }
  let a := { (s0.paceShow) with events := [] }.snapshotA k now busy l
  if a.phase ≠ .up then a
  else
    let b := a.snapshotB k now l
    if b.phase ≠ .up then b else b.process s.pace.used ended

/-- A tick edge at device time `now`. `spent` gives the cycles that running jobs have spent since the last edge, by
logical core; `busy` the reset domains (type and instance) whose reset time has not passed. -/
def execTickEdge (now : Nat) (spent busy : List (Nat × Nat)) (s : State) : Out :=
  if s.phase ≠ .up then .refused .cannotOccur
  else if s.pace.ticking then
    match s.nextSlew now with
    | none => .refused .cannotOccur
    | some d => .next (if s.pace.stopping then s.stopEdge now else s.edgeAt (s.tick + 1) now d true spent busy)
  else if s.pace.waiting then
    match s.firstEdge now with
    | none => .refused .cannotOccur
    | some k =>
      if s.pace.used.any (fun u => decide (k ≤ (u : Int))) ∨ k < 0 then .next s.refuseStart
      else .next (s.edgeAt k.toNat now 0 false spent busy)
  else .refused .cannotOccur

end Sys2Proof.Machine
end

