-- ==== Sys2Proof/Machine/RegisterWrite.lean ====
section
/-!
DEFINITION. A write of a CFG register through a port (R13, R14, R29, R327, R412, R523): which port reaches which
block, and the rules of the registers that have no command of their own. A write whose register has a command
of its own does what that command does.
-/
namespace Sys2Proof.Machine

def noSuch (s : State) : Out := .next s

/-! ### GLB, PACE, REIN, CURB, THERM -/

def State.paceReg (s : State) (port : Port) (now off : Nat) (v : W32) : Out :=
  if off = 0x10000 then (if newF v F.PACE_CTRL_ENABLE = 1 then execPaceEnable port now v s else execPaceDisable port now v s)
  else if off = 0x10004 then execPacePeriodWrite port v s
  else paceUp port s fun s => (s.paceWrite off v).getD (s.portWrite off v)

/-- A field outside the range that its table states keeps its value, and REIN_STATUS tells (R458). -/
def State.ranged (s : State) (off : Nat) (l : List (Fld × Nat × Nat)) (v : W32) : State :=
  let s1 := s.portWrite off (s.keep l v)
  if l.all fun x => inRng x.2.1 x.2.2 (newF v x.1) then s1 else s1.raise F.REIN_STATUS_WRITE_REJECT

/-- A write of the REIN registers. (DEDUCED, log 52) -/
def State.reinReg (s : State) (port : Port) (off : Nat) (v : W32) : Out :=
  if off = 0x20000 then execReinGaitWrite port v s
  else if isRein off then .next (s.reinWrite port off v)
  else if off = 0x20040 then (if newF v F.REIN_SLEEP_REQ = 1 then execReinSleep port s else .next s)
  else if off = 0x20044 ∧ port = .mgmt then .next (s.latch (.mgmtWrite off v))
  else hostWrite port s fun s =>
    if off = 0x28000 then s.ranged off [(F.CURB_CTRL_RATE_HI, 1, 255), (F.CURB_CTRL_THR_INIT, 20, 60)] v |>.curbInit
    else if off = 0x30004 then s.ranged off [(F.THERM_THR_T_THR, 85, 100)] v
    else s.portWrite off v

/-! ### ASSAY (R411, R415, R433) -/

/-- A write of MB_CTRL.GO: the operation that MB_REQ names; one that Table TR-3 does not list is refused.
(DEDUCED, log 83) -/
def State.mbGo (s : State) (port : Port) : Out :=
  match (s.mbBytes 0 1).getD 0 0 with
  | 0x01 => execPartCreate port s
  | 0x02 => execPartRemove port s
  | 0x10 => execBundleImport port s
  | 0x11 => execBundleDrop port s
  | 0x20 => execHallmark port s
  | 0x30 => execFuseRevoke port s
  | 0x31 => execFuseProgram port s
  | 0x32 => execFuseFloor port s
  | _ => hostWrite port s fun s => if s.getF F.MB_STATUS_STATE = 1 then s else s.mbReply rIllegalShape

def State.assayReg (s : State) (port : Port) (off : Nat) (v : W32) : Out :=
  if off = 0x40020 then
    (match newF v F.ASSAY_RECOV_CMD_OP with
     | 1 => execLoadPage port (newF v F.ASSAY_RECOV_CMD_PAGE) s
     | 2 => execRecovVerify port s
     | _ => .next s)
  else if 0x41000 ≤ off ∧ off < 0x42000 then recovWrite port s fun s => s.wr off v
  else if off = 0x44000 then (if v.toNat % 2 = 1 then s.mbGo port else .next s)
  else hostWrite port s fun s => if 0x42000 ≤ off ∧ off < 0x43000 then s.wr off v else s.portWrite off v

/-! ### HQE, the ring table and MSI-X tables (R325 to R330, R352) -/

/-- A write of an MSI-X table entry. A vector that is unmasked sends the message that waits in its PBA bit.
(PRESUMED, log 36) -/
def State.msixWrite (s : State) (fn i : Nat) (v : W32) : State :=
  let w := if i % 4 = 3 then v &&& 1#32 else if i % 4 = 0 then v &&& 0xFFFFFFFC#32 else v
  let s1 := { s with msix := tset msix0 s.msix (128 * fn + i) w }
  let pba := tget msix0 s.msix (0x10000 + fn)
  if i % 4 = 3 ∧ w = 0#32 ∧ pba.toNat / 2 ^ (i / 4) % 2 = 1 then
    { s1 with msix := tset msix0 s1.msix (0x10000 + fn) (pba &&& ~~~(BitVec.ofNat 32 (2 ^ (i / 4)))), irqs := s1.irqs ++ [(fn, i / 4)] }
  else s1

/-- HQE_VF_v: the PF alone, while no TDI has locked the partition; RING_BASE above 16,128 is ignored. -/
def State.vfReg (s : State) (port : Port) (v : Nat) (w : W32) : State :=
  if port ≠ .pf then s.denied port
  else match s.vfPart v with
  | some p => if s.tdiLocked p then s.denied port else put
  | none => put
where
  put : State := if 16128 < newF w (F.HQE_VF_RING_BASE v) then s else s.portWrite (0x80100 + 4 * v) w

def State.hqeReg (s : State) (port : Port) (off : Nat) (v : W32) : Out :=
  if s.phase ≠ .up then unreached s
  else if 0xC0000 ≤ off ∧ off < 0xC0200 then
    (match port with
     | .vf f => .next (if (s.vfPart f).isSome then s.msixWrite f ((off - 0xC0000) / 4) v else s.denied port)
     | .mgmt => .next (s.denied port)
     | _ => .next (s.msixWrite 0 ((off - 0xC0000) / 4) v))
  else if 0xD0000 ≤ off ∧ off < 0xD0008 then
    .next (match port with
      | .vf f => if (s.vfPart f).isSome then s else s.denied port
      | .mgmt => s.denied port
      | _ => s)
  else if 0x80104 ≤ off ∧ off < 0x80200 then .next (s.vfReg port ((off - 0x80100) / 4) v)
  else if off = 0x80100 then noSuch s
  else hostWrite port s fun s => s.portWrite off v

/-- A write of dword `d` of ring `r` other than the one with EN. (DEDUCED, log 98) -/
def State.ringReg (s : State) (r d : Nat) (v : W32) : State :=
  let off := 0x100000 + 64 * r + 4 * d
  if d = 0 then s.wr off v
  else if d < 6 then (if s.rEN r = 1 ∧ v ≠ s.rd off then s.raise F.HQE_STATUS_WRITE_REJECT else s.wr off v)
  else if d = 10 then (if v.toNat / 2 ^ 31 = 1 then s.setF (rDBERR r) 0 else s)
  else s

def State.ringEntry (s : State) (port : Port) (off : Nat) (v : W32) : Out :=
  let r := (off - 0x100000) / 64
  let d := (off - 0x100000) % 64 / 4
  if d = 1 then (if v.toNat / 2 ^ 31 = 1 then execRingEnable port r v s else execRingDisable port r v s)
  else if s.phase ≠ .up then unreached s
  else .next (if s.ringPort port r then s.ringReg r d v else s.denied port)

/-! ### DISP and STAB (R94, R242, R283, R347, R352) -/

/-- A frame template: the PF, the DRT, or a VF of the partition whose share holds the context. -/
def State.templateWrite (s : State) (port : Port) (off : Nat) (v : W32) : State :=
  match s.shareOwner ((off - 0x240000) / 64) with
  | some p => if s.partPort port p then s.wr off v else s.denied port
  | none => if portHost port then s.wr off v else s.denied port

def State.dispReg (s : State) (port : Port) (off : Nat) (v : W32) : Out :=
  if off = 0x200000 ∨ (0x200100 ≤ off ∧ off < 0x200180 ∧ off % 16 < 8) then execDispShareWrite port off v s
  else if off = 0x200048 then
    (if newF v F.DISP_PLOAD_CMD_OP = 1 then execProgramLoad port (newF v F.DISP_PLOAD_CMD_PART) s else hostWrite port s id)
  else if 0x240000 ≤ off ∧ off < 0x280000 then (if s.phase ≠ .up then unreached s else .next (s.templateWrite port off v))
  else hostWrite port s fun s => s.portWrite off v

/-- The object table, the arena and the Pool share of a partition may stand as they are (R283). (DEDUCED, log 97) -/
def State.stabOk (s : State) (p : Nat) : Bool :=
  let table := s.getF (F.STAB_P_OBJ_BASE_HI_ADDR p) * 2 ^ 32 + s.getF (F.STAB_P_OBJ_BASE_LO_ADDR p) * 32
  let count := s.getF (F.STAB_P_OBJ_COUNT_COUNT p)
  let slices := (partTeams (s.part p)).filter s.sliceOk
  let used := sumSizes (s.poolUsed.filter fun e => slices.any fun t => decide (poolBase t ≤ e.1 ∧ e.1 < poolBase (t + 1)))
  (decide (count = 0) || s.inRange p table (32 * count)) && (decide (s.arenaSize p = 0) || s.inRange p (s.arenaBase p) (s.arenaSize p)) &&
    decide (s.shareSize p + used ≤ 0x800000 * slices.length)

/-- A write of the STAB_P registers, judged as they would stand after it (R283). (DEDUCED, log 97) -/
def State.stabPWrite (s : State) (p off : Nat) (v : W32) : State :=
  let t := s.portWrite off v
  let locked := (s.objsOf p).any fun e => decide (e.2.stage ≠ 0)
  if (locked = true ∧ t.rd off ≠ s.rd off) ∨ t.stabOk p = false then s.raise F.STAB_STATUS_CMD_REJECT else t

def State.kvaReg (s : State) (port : Port) (off : Nat) (v : W32) : Out :=
  let p := (off - 0x3C0000) / 0x100
  let o := (off - 0x3C0000) % 0x100
  if o < 0x10 then execKvaConfigWrite port p o v s
  else if o = 0x10 then
    (match newF v (F.KVA_CMD_OP p) with
     | 1 => execKvActivate port p (newF v (F.KVA_CMD_CTX p)) s
     | 2 => execKvRelease port p (newF v (F.KVA_CMD_CTX p)) s
     | _ => .next s)
  else if o = 0x14 then execKvaFreePush port p v s
  else if s.phase ≠ .up then unreached s
  else .next (if s.partPort port p then s.portWrite off v else s.denied port)

def State.stabReg (s : State) (port : Port) (off : Nat) (v : W32) : Out :=
  let p := newF v F.STAB_CMD_PART
  if 0x3C0000 ≤ off ∧ off < 0x3C0800 then s.kvaReg port off v
  else if off = 0x300018 then
    (match newF v F.STAB_CMD_OP with
     | 1 => execStabLoad port p s
     | 2 => execStabFree port p s
     | 3 => execClearLost port p s
     | _ => hostWrite port s id)
  else if off = 0x300050 then execStabQuery port (newF v F.STAB_QUERY_PART) (newF v F.STAB_QUERY_ID) s
  else hostWrite port s fun s =>
    if off = 0x300000 then s.portWrite off (s.keep [(F.STAB_CTRL_MIG_PCT, 1, 5), (F.STAB_CTRL_DECAY, 1, 8)] v)
    else if off = 0x300004 ∧ newF v F.STAB_THRESH_PROMOTE_D ≤ newF v F.STAB_THRESH_DEMOTE_D then s.raise F.STAB_STATUS_CMD_REJECT
    else if 0x380000 ≤ off ∧ off < 0x380800 ∧ off % 0x100 < 0x18 then
      (if port = .pf ∧ s.tdiLocked ((off - 0x380000) / 0x100) = true then s.denied port else s.stabPWrite ((off - 0x380000) / 0x100) off v)
    else s.portWrite off v

/-! ### POOL, GDDR, FAB (R266, R267, R363, R379, R384) -/

/-- A write of the STAB, POOL and GDDR registers (R283). (DESIGN CHOICE, log 75) -/
def State.memReg (s : State) (port : Port) (off : Nat) (v : W32) : Out :=
  hostWrite port s fun s => s.portWrite off
    (if off = 0x500008 then s.keep [(F.GDDR_RETRAIN_PERIOD_MS, 10, 1000)] v
     else if off = 0x50000C then s.keep [(F.GDDR_SCRUB_HOURS, 0, 168)] v else v)

/-- The configuration that a job, or a JOIN, locks (R384, R523). -/
def fabFixed (off : Nat) : Bool := decide (off ∈ [0x600000, 0x600004, 0x600008, 0x600014, 0x600100, 0x600104, 0x600108, 0x60010C])

def fabReserved (off : Nat) : Bool :=
  (decide (0x601000 ≤ off ∧ off < 0x602000) && decide (48 ≤ off % 64)) ||
  (decide (0x602000 ≤ off ∧ off < 0x602100) && (decide (off % 128 = 68) || decide (76 ≤ off % 128)))

/-- What an accepted write of a fabric register leaves. (DESIGN CHOICE, log 75) (DEDUCED, log 76) -/
def State.fabPlain (s : State) (off : Nat) (v : W32) : State :=
  if off = 0x600000 then s.portWrite off (s.keep [(F.FAB_CTRL_ENCAP, 0, 1)] v)
  else if off = 0x600010 then s.portWrite off (s.keep [(F.FAB_TIMERS_RTO_US, 5, 1000), (F.FAB_TIMERS_RETRY_MAX, 2, 64)] v)
  else if off = 0x600014 then
    let n := newF v F.FAB_CREDITS_PER_PEER
    if inRng 3 16 n = true ∧ n * s.jobMembers.length ≤ 1024 then s.portWrite off v else s.raise F.FAB_STATUS_WRITE_REJECT
  else if off = 0x600020 ∨ off = 0x600024 then
    let f := (off - 0x600020) / 4
    if newF v (F.FAB_PORT_MODE f) = s.getF (F.FAB_PORT_MODE f) then s
    else if s.getF (F.FAB_PORT_STATE f) = 2 ∨ newF v (F.FAB_PORT_MODE f) = 3 then s.raise F.FAB_STATUS_WRITE_REJECT
    else s.portWrite off v
  else if off = 0x600104 then s.portWrite off (s.keep [(F.FAB_JOB_CFG_BTO, 1, 255)] v)
  else if 0x600200 ≤ off ∧ off < 0x600220 then s.wr off v
  else if off = 0x600220 then s.copGo
  else if fabReserved off then s
  else if 0x601000 ≤ off ∧ off < 0x602000 ∧ (off % 64 = 4 ∨ off % 64 = 12) then s.portWrite off (v &&& 0xFFFF#32)
  else if 0x602000 ≤ off ∧ off < 0x602100 ∧ off % 128 = 72 then s.portWrite off (v &&& 0x1F#32)
  else s.portWrite off v

def State.fabReg (s : State) (port : Port) (off : Nat) (v : W32) : Out :=
  if off = 0x600110 then
    (match newF v F.FAB_JOB_CMD_OP with
     | 1 => execFabJoin port s
     | 2 => execFabLeave port s
     | _ => hostWrite port s id)
  else if off = 0x60011C then execFabJobTpWrite port v s
  else if off = 0x600120 then execFabJobArrive port v s
  else hostWrite port s fun s =>
    let t := s.fabPlain off v
    if s.offAbsent off then s
    else if fabFixed off && (s.inJob || decide (s.jobState = stJoining)) && t.rd off != s.rd off then s.raise F.FAB_STATUS_WRITE_REJECT
    else t

/-! ### VIS (R284, R315, R322) -/

/-- RAW_CTRL: while EN is 1 only EN may change. Enabling waits for a frame; disabling closes the open one.
(DEDUCED, log 60) -/
def State.rawCtrl (s : State) (p now : Nat) (v : W32) : State :=
  let off := 0x701000 + 0x40 * p
  let t := s.portWrite off v
  if 6 ≤ newF v (F.RAW_CTRL_FORMAT p) then s.visReject
  else if s.getF (F.RAW_CTRL_EN p) = 1 then
    if (t.rd off) ||| 1#32 ≠ s.rd off then s.visReject
    else if newF v (F.RAW_CTRL_EN p) = 1 then s else t.rawDisable p now
  else if newF v (F.RAW_CTRL_EN p) = 1 then t.setRawState p 3 else t

def evenIn (n : Nat) : Bool := inRng 64 8192 n && decide (n % 2 = 0)

/-- A write of the registers of raw port `p`. (DEDUCED, log 60) -/
def State.rawReg (s : State) (p now off : Nat) (v : W32) : State :=
  if s.rawPresent p = false then s
  else match off % 0x40 with
  | 0 => s.rawCtrl p now v
  | 4 =>
    let t := s.portWrite off v
    if (s.getF (F.RAW_CTRL_EN p) = 1 ∧ t.rd off ≠ s.rd off) ∨ evenIn (newF v (F.RAW_SIZE_WIDTH p)) = false ∨
        evenIn (newF v (F.RAW_SIZE_HEIGHT p)) = false then s.visReject else t
  | 0xC => s.portWrite off (s.keep [(F.RAW_TIMEOUT_TIMEOUT_US p, 1, 65535)] v)
  | _ => s.portWrite off v

/-- A write of the VIS block (R284, R295, R315). (DEDUCED, log 44) -/
def State.visReg (s : State) (port : Port) (now off : Nat) (v : W32) : Out :=
  if 0x780000 ≤ off then execStreamCtxWrite port ((off - 0x780000) / 128) ((off - 0x780000) % 128 / 4) v s
  else if off = 0x700000 then
    (match newF v F.VIS_CTX_CMD_OP with
     | 1 => execActivate port (newF v F.VIS_CTX_CMD_CTX) s
     | 2 => execDeactivate port (newF v F.VIS_CTX_CMD_CTX) s
     | _ => hostWrite port s id)
  else if off = 0x70000C then execFbRelease port (newF v F.VIS_FB_RELEASE_CTX) (newF v F.VIS_FB_RELEASE_FBIDX) s
  else if off = 0x700018 then execJpegSubmit port v s
  else if 0x701000 ≤ off ∧ off < 0x701200 ∧ off % 0x40 = 0x10 then execRawIspCommit port ((off - 0x701000) / 0x40) v s
  else hostWrite port s fun s =>
    if off = 0x700014 then s.wr off v
    else if 0x701000 ≤ off ∧ off < 0x701200 then s.rawReg ((off - 0x701000) / 0x40) now off v
    else if 0x710000 ≤ off ∧ off < 0x730000 then (if s.rawPresent ((off - 0x710000) / 0x4000) then s.wr off (v &&& ispBits ((off - 0x710000) % 0x4000)) else s)
    else s.portWrite off v

/-! ### RAS, DBG, host cores (R461, R477, R490 to R494, R498) -/

def State.rasReg (s : State) (port : Port) (off : Nat) (v : W32) : Out :=
  let d := newF v F.RAS_CMD_DTYPE
  let i := newF v F.RAS_CMD_INST
  if off = 0x800040 then
    (match newF v F.RAS_CMD_OP with
     | 1 => execRasReset port d i s
     | 2 => execRasRetire port d i s
     | 3 => execRasInject port d i s
     | _ => hostWrite port s fun s => s.raise F.RAS_STATUS_WRITE_REJECT)
  else hostWrite port s fun s =>
    if 0x800010 ≤ off ∧ off < 0x800030 then s.latch (.cfgWrite off v)
    else if off = 0x800000 then s.portWrite off (s.keep [(F.RAS_CTRL_TRANS_LIM, 1, 255)] v)
    else s.portWrite off v

/-- PROF_CTRL: a ring outside the usable range refuses ENABLE; the ring is written from its start anew.
(DEDUCED, log 94) -/
def State.profCtrl (s : State) (v : W32) : State :=
  let t := s.portWrite 0x900020 (s.keep [(F.PROF_CTRL_LOG2, 8, 20)] v)
  if newF v F.PROF_CTRL_ENABLE = 0 then t
  else if s.profOk s.profBaseAddr (t.getF F.PROF_CTRL_LOG2) = false then s.raise F.DBG_STATUS_WRITE_REJECT
  else if s.flag F.PROF_CTRL_ENABLE then t else { t with profNext := 0 }

/-- A write of the DBG block (R490, R494). (DEDUCED, log 87) -/
def State.dbgReg (s : State) (port : Port) (off : Nat) (v : W32) : Out :=
  if off = 0x900000 then
    (match newF v F.DBG_SESSION_CMD_OP with
     | 1 => execOpenSession port (newF v F.DBG_SESSION_CMD_SCOPE) s
     | 2 => execCloseSession port s
     | _ => hostWrite port s id)
  else hostWrite port s fun s =>
    if port ≠ .pf then s.denied port
    else if off = 0x900020 then s.profCtrl v
    else s.portWrite off v

def State.hostCoreReg (s : State) (port : Port) (off : Nat) (v : W32) : Out :=
  if off = 0xA00000 then execHostcoreMemCfgWrite port v s
  else if off = 0xA00008 then
    (match newF v F.HOSTCORE_L2_CMD_OP with
     | 1 => execFlush port s
     | 2 => execInvalidate port s
     | 3 => execFlushInv port s
     | _ => hostWrite port s id)
  else if off = 0xA00104 then
    (match newF v F.HOSTCORE_LIVE_CMD_OP with
     | 1 => execLiveLoad port s
     | 2 => execLiveMove port (newF v F.HOSTCORE_LIVE_CMD_PART) s
     | 3 => execLiveCommit port s
     | 4 => execLiveAbort port s
     | _ => hostWrite port s id)
  else hostWrite port s fun s => s.portWrite off v

/-! ### Team windows (R82, R84, R259, R493, R495) -/

/-- A debug register of slot `k`: only while a session reaches the core. (DEDUCED, log 87) -/
def State.debugRegWrite (s : State) (port : Port) (k o : Nat) (v : W32) : State :=
  let n := s.logicalOf k
  if port ≠ .pf then s.denied port
  else if s.debugReaches (s.partOf n) = false then s.raise F.DBG_STATUS_WRITE_REJECT
  else s.teamWrite (k / 9) o v fun s => s.heldWrite (k / 9) (o, v)

/-- A write in the window of Team `t`, at its offset `o`. A write of FORCE_ON is no request: it takes effect at once and the
Team wakes at the next edge (R82). (DEDUCED, log 28) -/
def State.teamReg (s : State) (port : Port) (t o : Nat) (v : W32) : Out :=
  hostWrite port s fun s =>
    if s.teamPresent t = false then s
    else if o = 0x10 ∧ newF v (F.TEAM_PWR_CTRL_MODE t) = 0 then s.heldWrite t (o, v)
    else if (o = 0x300 ∨ o = 0x308) ∧ port ≠ .pf then s.denied port
    else match debugReg (teamBase t + o) with
    | some (k, _) => s.debugRegWrite port k o v
    | none => s.teamWrite t o v fun s => s.heldWrite t (o, v)

/-! ### The whole map (Table DO-7) -/

/-- A word written at a CFG offset through a port at device time `now`. (DESIGN CHOICE, log 95) -/
def State.cfgWrite (s : State) (port : Port) (now off : Nat) (v : W32) : Out :=
  if off < 0x10000 then hostWrite port s fun s => s.portWrite off v
  else if off < 0x20000 then s.paceReg port now off v
  else if off < 0x40000 then s.reinReg port off v
  else if off < 0x80000 then s.assayReg port off v
  else if off < 0x100000 then s.hqeReg port off v
  else if off < 0x200000 then s.ringEntry port off v
  else if off < 0x300000 then s.dispReg port off v
  else if off < 0x400000 then s.stabReg port off v
  else if off < 0x600000 then s.memReg port off v
  else if off < 0x700000 then s.fabReg port off v
  else if off < 0x800000 then s.visReg port now off v
  else if off < 0x900000 then s.rasReg port off v
  else if off < 0xA00000 then s.dbgReg port off v
  else if off < 0x1000000 then s.hostCoreReg port off v
  else if off < 0x3000000 then s.teamReg port ((off - 0x1000000) / 0x400000) ((off - 0x1000000) % 0x400000) v
  else noSuch s

/-- A write of a CFG register. One that is not an aligned word is not performed, and counted where PCIe carries it
(R29). While the device is halted or in recovery only the ASSAY block answers. (DEDUCED, log 96) -/
def execRegisterWrite (port : Port) (now off : Nat) (w : W32) (s : State) : Out :=
  if s.phase ≠ .up ∧ s.phase ≠ .halted ∧ s.phase ≠ .recovery then unreached s
  else if off % 4 ≠ 0 then (if s.phase = .up then .next (if port = .drt then s else s.addF F.RAS_UNPOP_WR_COUNT 1) else unreached s)
  else s.cfgWrite port now off w

end Sys2Proof.Machine
end

