-- ==== Sys2Proof/Machine/Dispatch.lean ====
section
/-!
DEFINITION. One arm for each command: the meaning it calls.
-/
namespace Sys2Proof.Machine

def exec (i : Instr) (s : State) : Host.Outcome State Fault Refusal :=
  match i with
  | .registerWrite port now off w => Sys2Proof.Machine.execRegisterWrite port now off w s
  | .tickEdge now spent busy => Sys2Proof.Machine.execTickEdge now spent busy s
  | .pacePeriodWrite port w => Sys2Proof.Machine.execPacePeriodWrite port w s
  | .paceEnable port now w => Sys2Proof.Machine.execPaceEnable port now w s
  | .paceDisable port now w => Sys2Proof.Machine.execPaceDisable port now w s
  | .ptpSync f now offset => Sys2Proof.Machine.execPtpSync f now offset s
  | .ptpLockLost f now => Sys2Proof.Machine.execPtpLockLost f now s
  | .ptpLost now => Sys2Proof.Machine.execPtpLost now s
  | .paceInEdge now diff => Sys2Proof.Machine.execPaceInEdge now diff s
  | .paceInEdgeMissing => Sys2Proof.Machine.execPaceInEdgeMissing s
  | .paceTimerExpire n now => Sys2Proof.Machine.execPaceTimerExpire n now s
  | .nop n => Sys2Proof.Machine.execNop n s
  | .add n => Sys2Proof.Machine.execAdd n s
  | .sub n => Sys2Proof.Machine.execSub n s
  | .and n => Sys2Proof.Machine.execAnd n s
  | .or n => Sys2Proof.Machine.execOr n s
  | .xor n => Sys2Proof.Machine.execXor n s
  | .sll n => Sys2Proof.Machine.execSll n s
  | .srl n => Sys2Proof.Machine.execSrl n s
  | .sra n => Sys2Proof.Machine.execSra n s
  | .slt n => Sys2Proof.Machine.execSlt n s
  | .sltu n => Sys2Proof.Machine.execSltu n s
  | .addi n => Sys2Proof.Machine.execAddi n s
  | .andi n => Sys2Proof.Machine.execAndi n s
  | .ori n => Sys2Proof.Machine.execOri n s
  | .xori n => Sys2Proof.Machine.execXori n s
  | .slli n => Sys2Proof.Machine.execSlli n s
  | .srli n => Sys2Proof.Machine.execSrli n s
  | .srai n => Sys2Proof.Machine.execSrai n s
  | .slti n => Sys2Proof.Machine.execSlti n s
  | .sltiu n => Sys2Proof.Machine.execSltiu n s
  | .li n => Sys2Proof.Machine.execLi n s
  | .lih n => Sys2Proof.Machine.execLih n s
  | .mul n => Sys2Proof.Machine.execMul n s
  | .mulh n => Sys2Proof.Machine.execMulh n s
  | .mulhu n => Sys2Proof.Machine.execMulhu n s
  | .div n => Sys2Proof.Machine.execDiv n s
  | .divu n => Sys2Proof.Machine.execDivu n s
  | .rem n => Sys2Proof.Machine.execRem n s
  | .remu n => Sys2Proof.Machine.execRemu n s
  | .ldB n => Sys2Proof.Machine.execLdB n s
  | .ldH n => Sys2Proof.Machine.execLdH n s
  | .ldW n => Sys2Proof.Machine.execLdW n s
  | .ldD n => Sys2Proof.Machine.execLdD n s
  | .lduB n => Sys2Proof.Machine.execLduB n s
  | .lduH n => Sys2Proof.Machine.execLduH n s
  | .lduW n => Sys2Proof.Machine.execLduW n s
  | .stB n => Sys2Proof.Machine.execStB n s
  | .stH n => Sys2Proof.Machine.execStH n s
  | .stW n => Sys2Proof.Machine.execStW n s
  | .stD n => Sys2Proof.Machine.execStD n s
  | .beq n => Sys2Proof.Machine.execBeq n s
  | .bne n => Sys2Proof.Machine.execBne n s
  | .blt n => Sys2Proof.Machine.execBlt n s
  | .bge n => Sys2Proof.Machine.execBge n s
  | .bltu n => Sys2Proof.Machine.execBltu n s
  | .bgeu n => Sys2Proof.Machine.execBgeu n s
  | .jal n => Sys2Proof.Machine.execJal n s
  | .jalr n => Sys2Proof.Machine.execJalr n s
  | .csrr n => Sys2Proof.Machine.execCsrr n s
  | .csrw n => Sys2Proof.Machine.execCsrw n s
  | .setTag n => Sys2Proof.Machine.execSetTag n s
  | .salloc n => Sys2Proof.Machine.execSalloc n s
  | .sreset n => Sys2Proof.Machine.execSreset n s
  | .qcfg n => Sys2Proof.Machine.execQcfg n s
  | .qadvT n => Sys2Proof.Machine.execQadvT n s
  | .qadvH n => Sys2Proof.Machine.execQadvH n s
  | .issue n => Sys2Proof.Machine.execIssue n s
  | .waitSem n => Sys2Proof.Machine.execWaitSem n s
  | .waitSatisfied n => Sys2Proof.Machine.execWaitSatisfied n s
  | .signalSem n => Sys2Proof.Machine.execSignalSem n s
  | .takeTile n => Sys2Proof.Machine.execTakeTile n s
  | .halt n => Sys2Proof.Machine.execHalt n s
  | .brk n => Sys2Proof.Machine.execBrk n s
  | .mmul n t => Sys2Proof.Machine.execMmul n t s
  | .guardReplayEnd n persistent cycles => Sys2Proof.Machine.execGuardReplayEnd n persistent cycles s
  | .mfree n => Sys2Proof.Machine.execMfree n s
  | .mdrain n t => Sys2Proof.Machine.execMdrain n t s
  | .xcfg n => Sys2Proof.Machine.execXcfg n s
  | .dmove n => Sys2Proof.Machine.execDmove n s
  | .kfetch n => Sys2Proof.Machine.execKfetch n s
  | .kappend n => Sys2Proof.Machine.execKappend n s
  | .econv t => Sys2Proof.Machine.execEconv t s
  | .ebox t => Sys2Proof.Machine.execEbox t s
  | .enms t => Sys2Proof.Machine.execEnms t s
  | .fftc t => Sys2Proof.Machine.execFftc t s
  | .vcall n => Sys2Proof.Machine.execVcall n s
  | .vwin n held => Sys2Proof.Machine.execVwin n held s
  | .commandComplete u e => Sys2Proof.Machine.execCommandComplete u e s
  | .remoteSignalArrive src dst => Sys2Proof.Machine.execRemoteSignalArrive src dst s
  | .signalOutcomeReturn src dst => Sys2Proof.Machine.execSignalOutcomeReturn src dst s
  | .vectorBundle n => Sys2Proof.Machine.execVectorBundle n s
  | .vectorResultLand n => Sys2Proof.Machine.execVectorResultLand n s
  | .programLoad port p => Sys2Proof.Machine.execProgramLoad port p s
  | .programLoadComplete => Sys2Proof.Machine.execProgramLoadComplete s
  | .jobStart n => Sys2Proof.Machine.execJobStart n s
  | .jobCoreComplete n cycles => Sys2Proof.Machine.execJobCoreComplete n cycles s
  | .coalesceTimeout r => Sys2Proof.Machine.execCoalesceTimeout r s
  | .gatingComplete t => Sys2Proof.Machine.execGatingComplete t s
  | .teamWake t => Sys2Proof.Machine.execTeamWake t s
  | .teamWakeComplete t => Sys2Proof.Machine.execTeamWakeComplete t s
  | .arm port t c => Sys2Proof.Machine.execArm port t c s
  | .rewind port t c => Sys2Proof.Machine.execRewind port t c s
  | .disarm port t c => Sys2Proof.Machine.execDisarm port t c s
  | .stabLoad port p => Sys2Proof.Machine.execStabLoad port p s
  | .loadFillComplete p id => Sys2Proof.Machine.execLoadFillComplete p id s
  | .stabFree port p => Sys2Proof.Machine.execStabFree port p s
  | .clearLost port p => Sys2Proof.Machine.execClearLost port p s
  | .stabQuery port p id => Sys2Proof.Machine.execStabQuery port p id s
  | .migrationCopyComplete p id sg => Sys2Proof.Machine.execMigrationCopyComplete p id sg s
  | .gddrRetrain c ok => Sys2Proof.Machine.execGddrRetrain c ok s
  | .gddrCrcFail c nth => Sys2Proof.Machine.execGddrCrcFail c nth s
  | .gddrScrub a flips => Sys2Proof.Machine.execGddrScrub a flips s
  | .sramScrub m unit a flips dom now => Sys2Proof.Machine.execSramScrub m unit a flips dom now s
  | .kvActivate port p x => Sys2Proof.Machine.execKvActivate port p x s
  | .kvRelease port p x => Sys2Proof.Machine.execKvRelease port p x s
  | .kvReleaseComplete p x => Sys2Proof.Machine.execKvReleaseComplete p x s
  | .kvaFreePush port p w => Sys2Proof.Machine.execKvaFreePush port p w s
  | .kvaConfigWrite port p off w => Sys2Proof.Machine.execKvaConfigWrite port p off w s
  | .activate port n => Sys2Proof.Machine.execActivate port n s
  | .deactivate port n => Sys2Proof.Machine.execDeactivate port n s
  | .streamCtxWrite port n d w => Sys2Proof.Machine.execStreamCtxWrite port n d w s
  | .rawFrameOpen p => Sys2Proof.Machine.execRawFrameOpen p s
  | .rawLineStart p => Sys2Proof.Machine.execRawLineStart p s
  | .rawFrameClose p now => Sys2Proof.Machine.execRawFrameClose p now s
  | .rawTimeout p now => Sys2Proof.Machine.execRawTimeout p now s
  | .ispFrameComplete p => Sys2Proof.Machine.execIspFrameComplete p s
  | .rawIspCommit port p w => Sys2Proof.Machine.execRawIspCommit port p w s
  | .cameraPacket f now frame => Sys2Proof.Machine.execCameraPacket f now frame s
  | .packetLossDeclared n now => Sys2Proof.Machine.execPacketLossDeclared n now s
  | .accessUnitRelease n now => Sys2Proof.Machine.execAccessUnitRelease n now s
  | .decodeStart d info => Sys2Proof.Machine.execDecodeStart d info s
  | .decodeComplete d p => Sys2Proof.Machine.execDecodeComplete d p s
  | .decoderTimeout d => Sys2Proof.Machine.execDecoderTimeout d s
  | .fbRelease port n fb => Sys2Proof.Machine.execFbRelease port n fb s
  | .swageJobStart e => Sys2Proof.Machine.execSwageJobStart e s
  | .swageJobComplete e => Sys2Proof.Machine.execSwageJobComplete e s
  | .encodeStart e => Sys2Proof.Machine.execEncodeStart e s
  | .encodeComplete e b => Sys2Proof.Machine.execEncodeComplete e b s
  | .jpegSubmit port w => Sys2Proof.Machine.execJpegSubmit port w s
  | .jpegJobStart => Sys2Proof.Machine.execJpegJobStart s
  | .jpegJobComplete b => Sys2Proof.Machine.execJpegJobComplete b s
  | .dbSqTail port r w => Sys2Proof.Machine.execDbSqTail port r w s
  | .dbCqHead port r w => Sys2Proof.Machine.execDbCqHead port r w s
  | .dbAbort port r w => Sys2Proof.Machine.execDbAbort port r w s
  | .descriptorTake r => Sys2Proof.Machine.execDescriptorTake r s
  | .ringEnable port r w => Sys2Proof.Machine.execRingEnable port r w s
  | .ringDisable port r w => Sys2Proof.Machine.execRingDisable port r w s
  | .dispShareWrite port off w => Sys2Proof.Machine.execDispShareWrite port off w s
  | .vfFlr v => Sys2Proof.Machine.execVfFlr v s
  | .pfFlr => Sys2Proof.Machine.execPfFlr s
  | .ackMsg f frame => Sys2Proof.Machine.execAckMsg f frame s
  | .dataMsg f frame => Sys2Proof.Machine.execDataMsg f frame s
  | .barrierMsg f frame => Sys2Proof.Machine.execBarrierMsg f frame s
  | .freqMsg f frame => Sys2Proof.Machine.execFreqMsg f frame s
  | .fannMsg f frame => Sys2Proof.Machine.execFannMsg f frame s
  | .membJoin f frame => Sys2Proof.Machine.execMembJoin f frame s
  | .membLeave f frame => Sys2Proof.Machine.execMembLeave f frame s
  | .jfaultMsg f frame => Sys2Proof.Machine.execJfaultMsg f frame s
  | .hostCoreFrame f frame => Sys2Proof.Machine.execHostCoreFrame f frame s
  | .ackTimer p => Sys2Proof.Machine.execAckTimer p s
  | .retransmitTimeout p seq => Sys2Proof.Machine.execRetransmitTimeout p seq s
  | .portDown f now => Sys2Proof.Machine.execPortDown f now s
  | .portUp f => Sys2Proof.Machine.execPortUp f s
  | .planeRetry p f => Sys2Proof.Machine.execPlaneRetry p f s
  | .fabJoin port => Sys2Proof.Machine.execFabJoin port s
  | .fabLeave port => Sys2Proof.Machine.execFabLeave port s
  | .fabJobTpWrite port w => Sys2Proof.Machine.execFabJobTpWrite port w s
  | .fabJobArrive port w => Sys2Proof.Machine.execFabJobArrive port w s
  | .fannDeadline now => Sys2Proof.Machine.execFannDeadline now s
  | .barrierTimeout now => Sys2Proof.Machine.execBarrierTimeout now s
  | .bcast => Sys2Proof.Machine.execBcast s
  | .allreduce => Sys2Proof.Machine.execAllreduce s
  | .halo => Sys2Proof.Machine.execHalo s
  | .operationBarrier => Sys2Proof.Machine.execOperationBarrier s
  | .bootStart b => Sys2Proof.Machine.execBootStart b s
  | .assayRetry b => Sys2Proof.Machine.execAssayRetry b s
  | .coldReset => Sys2Proof.Machine.execColdReset s
  | .railFault => Sys2Proof.Machine.execRailFault s
  | .perst => Sys2Proof.Machine.execPerst s
  | .loadPage port page => Sys2Proof.Machine.execLoadPage port page s
  | .recovVerify port => Sys2Proof.Machine.execRecovVerify port s
  | .hostcoreMemCfgWrite port w => Sys2Proof.Machine.execHostcoreMemCfgWrite port w s
  | .flush port => Sys2Proof.Machine.execFlush port s
  | .invalidate port => Sys2Proof.Machine.execInvalidate port s
  | .flushInv port => Sys2Proof.Machine.execFlushInv port s
  | .cacheOpComplete => Sys2Proof.Machine.execCacheOpComplete s
  | .partCreate port => Sys2Proof.Machine.execPartCreate port s
  | .partRemove port => Sys2Proof.Machine.execPartRemove port s
  | .partScrubComplete p => Sys2Proof.Machine.execPartScrubComplete p s
  | .bundleImport port => Sys2Proof.Machine.execBundleImport port s
  | .bundleDrop port => Sys2Proof.Machine.execBundleDrop port s
  | .hallmark port => Sys2Proof.Machine.execHallmark port s
  | .fuseRevoke port => Sys2Proof.Machine.execFuseRevoke port s
  | .fuseProgram port => Sys2Proof.Machine.execFuseProgram port s
  | .fuseFloor port => Sys2Proof.Machine.execFuseFloor port s
  | .getVersion f => Sys2Proof.Machine.execGetVersion f s
  | .getCapabilities f => Sys2Proof.Machine.execGetCapabilities f s
  | .negotiateAlgorithms f ok => Sys2Proof.Machine.execNegotiateAlgorithms f ok s
  | .getDigests f => Sys2Proof.Machine.execGetDigests f s
  | .getCertificate f slot => Sys2Proof.Machine.execGetCertificate f slot s
  | .spdmChallenge f slot nonce => Sys2Proof.Machine.execSpdmChallenge f slot nonce s
  | .getMeasurements f idx nonce => Sys2Proof.Machine.execGetMeasurements f idx nonce s
  | .keyExchange f slot nonce => Sys2Proof.Machine.execKeyExchange f slot nonce s
  | .spdmFinish f sid ok => Sys2Proof.Machine.execSpdmFinish f sid ok s
  | .endSession f sid => Sys2Proof.Machine.execEndSession f sid s
  | .ideQuery f sid => Sys2Proof.Machine.execIdeQuery f sid s
  | .keyProg f sid k kset dir ch key lo hi => Sys2Proof.Machine.execKeyProg f sid k kset dir ch key lo hi s
  | .kSetGo f sid k kset dir ch => Sys2Proof.Machine.execKSetGo f sid k kset dir ch s
  | .kSetStop f sid k kset dir ch => Sys2Proof.Machine.execKSetStop f sid k kset dir ch s
  | .getTdispVersion f sid v => Sys2Proof.Machine.execGetTdispVersion f sid v s
  | .getTdispCapabilities f sid v => Sys2Proof.Machine.execGetTdispCapabilities f sid v s
  | .lockInterfaceRequest f sid v => Sys2Proof.Machine.execLockInterfaceRequest f sid v s
  | .getDeviceInterfaceReport f sid v => Sys2Proof.Machine.execGetDeviceInterfaceReport f sid v s
  | .getDeviceInterfaceState f sid v => Sys2Proof.Machine.execGetDeviceInterfaceState f sid v s
  | .startInterfaceRequest f sid v nonce => Sys2Proof.Machine.execStartInterfaceRequest f sid v nonce s
  | .stopInterfaceRequest f sid v => Sys2Proof.Machine.execStopInterfaceRequest f sid v s
  | .reinGaitWrite port w => Sys2Proof.Machine.execReinGaitWrite port w s
  | .voltageRampDone now => Sys2Proof.Machine.execVoltageRampDone now s
  | .reinSample now p telem warn => Sys2Proof.Machine.execReinSample now p telem warn s
  | .fSustRevision now => Sys2Proof.Machine.execFSustRevision now s
  | .vrAlert now => Sys2Proof.Machine.execVrAlert now s
  | .avsTimeout now => Sys2Proof.Machine.execAvsTimeout now s
  | .fSupplyRemoved now => Sys2Proof.Machine.execFSupplyRemoved now s
  | .avsUpdate now vcrit meas => Sys2Proof.Machine.execAvsUpdate now vcrit meas s
  | .droopDetect d now => Sys2Proof.Machine.execDroopDetect d now s
  | .stretchEnd d lost now => Sys2Proof.Machine.execStretchEnd d lost now s
  | .curbAdapt => Sys2Proof.Machine.execCurbAdapt s
  | .thermalSample now temps => Sys2Proof.Machine.execThermalSample now temps s
  | .reinSleep port => Sys2Proof.Machine.execReinSleep port s
  | .wakeN => Sys2Proof.Machine.execWakeN s
  | .wakeTimer => Sys2Proof.Machine.execWakeTimer s
  | .rasReset port dtype inst => Sys2Proof.Machine.execRasReset port dtype inst s
  | .rasRetire port dtype inst => Sys2Proof.Machine.execRasRetire port dtype inst s
  | .rasInject port dtype inst => Sys2Proof.Machine.execRasInject port dtype inst s
  | .setEndpointId eid => Sys2Proof.Machine.execSetEndpointId eid s
  | .getEndpointId => Sys2Proof.Machine.execGetEndpointId s
  | .getEndpointUuid => Sys2Proof.Machine.execGetEndpointUuid s
  | .getMctpVersionSupport typ => Sys2Proof.Machine.execGetMctpVersionSupport typ s
  | .getMessageTypeSupport => Sys2Proof.Machine.execGetMessageTypeSupport s
  | .getPdr handle => Sys2Proof.Machine.execGetPdr handle s
  | .sensorReading id => Sys2Proof.Machine.execSensorReading id s
  | .setEventReceiver eid => Sys2Proof.Machine.execSetEventReceiver eid s
  | .getEffecterValue id => Sys2Proof.Machine.execGetEffecterValue id s
  | .sensorRefresh => Sys2Proof.Machine.execSensorRefresh s
  | .gaitEffecter v => Sys2Proof.Machine.execGaitEffecter v s
  | .plSustEffecter v => Sys2Proof.Machine.execPlSustEffecter v s
  | .plFastEffecter v => Sys2Proof.Machine.execPlFastEffecter v s
  | .windowEffecter v => Sys2Proof.Machine.execWindowEffecter v s
  | .hostLimitEffecter v => Sys2Proof.Machine.execHostLimitEffecter v s
  | .resetEffecter => Sys2Proof.Machine.execResetEffecter s
  | .domainResetEffecter v => Sys2Proof.Machine.execDomainResetEffecter v s
  | .sleepEffecter => Sys2Proof.Machine.execSleepEffecter s
  | .wakeEffecter => Sys2Proof.Machine.execWakeEffecter s
  | .wakeTimerEffecter v => Sys2Proof.Machine.execWakeTimerEffecter v s
  | .requestUpdate => Sys2Proof.Machine.execRequestUpdate s
  | .passComponentTable c h => Sys2Proof.Machine.execPassComponentTable c h s
  | .updateComponent c h => Sys2Proof.Machine.execUpdateComponent c h s
  | .firmwareTransfer c off b => Sys2Proof.Machine.execFirmwareTransfer c off b s
  | .verifyComplete => Sys2Proof.Machine.execVerifyComplete s
  | .applyComplete => Sys2Proof.Machine.execApplyComplete s
  | .activateFirmware selfContained => Sys2Proof.Machine.execActivateFirmware selfContained s
  | .updateCancel => Sys2Proof.Machine.execUpdateCancel s
  | .liveLoad port => Sys2Proof.Machine.execLiveLoad port s
  | .liveMove port p => Sys2Proof.Machine.execLiveMove port p s
  | .liveCommit port => Sys2Proof.Machine.execLiveCommit port s
  | .liveAbort port => Sys2Proof.Machine.execLiveAbort port s
  | .jtagBypass code => Sys2Proof.Machine.execJtagBypass code s
  | .jtagIdcode => Sys2Proof.Machine.execJtagIdcode s
  | .jtagSamplePreload pins cells => Sys2Proof.Machine.execJtagSamplePreload pins cells s
  | .jtagExtest pins cells => Sys2Proof.Machine.execJtagExtest pins cells s
  | .jtagClamp => Sys2Proof.Machine.execJtagClamp s
  | .jtagHighz => Sys2Proof.Machine.execJtagHighz s
  | .jtagAttach => Sys2Proof.Machine.execJtagAttach s
  | .jtagDetach => Sys2Proof.Machine.execJtagDetach s
  | .dbgaccRead a => Sys2Proof.Machine.execDbgaccRead a s
  | .dbgaccWrite a w => Sys2Proof.Machine.execDbgaccWrite a w s
  | .tapReset => Sys2Proof.Machine.execTapReset s
  | .openSession port scope => Sys2Proof.Machine.execOpenSession port scope s
  | .closeSession port => Sys2Proof.Machine.execCloseSession port s
  | .debugHalt port n => Sys2Proof.Machine.execDebugHalt port n s
  | .resumeCore port n => Sys2Proof.Machine.execResumeCore port n s
  | .stepCore port n => Sys2Proof.Machine.execStepCore port n s
  | .railWarning now => Sys2Proof.Machine.execRailWarning now s
  | .vddAonLoss => Sys2Proof.Machine.execVddAonLoss s
  | .rawPixel p d => Sys2Proof.Machine.execRawPixel p d s
  | .bundleCopyComplete => Sys2Proof.Machine.execBundleCopyComplete s
  | .decoderGroupPowered g => Sys2Proof.Machine.execDecoderGroupPowered g s
  | .unassignedOpcode n => Sys2Proof.Machine.execUnassignedOpcode n s

end Sys2Proof.Machine
end

