-- ==== Sys2Proof/Machine/Step.lean ====
section
/-!
DEFINITION. One step of the block: the command at the front of the queue is carried out with the queue's rest. On an
empty queue the block idles: what happens by the clock alone is a command of its own (a tick edge, a timer, a
completion), so nothing else is due.
-/
namespace Sys2Proof.Machine

/-- Take the command at the front of the queue and carry it out. (DESIGN CHOICE, log 3) -/
def step (s : State) : Host.Outcome State Fault Refusal :=
  match s.pending with
  | [] => .next s
  | c :: rest => exec c { s with pending := rest }

/-- The state with the command that a word spells at the front of its queue; no row of the table gives its
command bits, so every word leaves the state as it is. (DEDUCED, log 4) -/
def State.withFetchWord (s : State) (nbits w : Nat) : State :=
  match decodeTableWord nbits w with
  | none => s
  | some c => { s with pending := c :: s.pending }

end Sys2Proof.Machine
end

