-- ==== Sys2Proof/Safety.lean ====
section
/-!
DEFINITION. What counts as a safe run, and the words in which the statements are made.
-/
namespace Sys2Proof

/-- The canonical form of a memory: addresses rise strictly, and no byte listed is what an unlisted one reads as. -/
def Memory.wf (m : Memory) : Bool := Machine.tok Machine.byte0 m

end Sys2Proof

namespace Sys2Proof.Machine

/-- The canonical form of the whole state's memory and register file. -/
def State.canonical (s : State) : Prop := Memory.wf s.mem = true ∧ tok regReset s.regs = true

/-- A step is safe where it goes on. -/
def StepSafe (s : State) : Prop := ∃ t, step s = .next t

/-! ### Teamster instructions -/

/-- Logical core `n`, which slot `k` holds, is about to run the instruction word `w`: it runs, nothing holds it, and
its PC names a loaded word without an error. -/
structure Fetches (s : State) (n k : Nat) (w : W64) : Prop where
  up : s.phase = .up
  slot : s.slotOf n = some k
  runs : (s.core k).run = true
  notStopped : (s.core k).stopped = false
  notWaiting : (s.core k).wait = none
  loaded : (s.core k).pc < (s.core k).nInst
  clean : (3, (s.core k).pc) ∉ (s.core k).bad
  word : tget sreg0 (s.core k).istore (s.core k).pc = w

/-- An instruction of core `n` leaves core `c` in slot `k`; a STEP ends with it (R493). -/
def State.leaves (s : State) (n k : Nat) (c : Core) : State := (s.setCore k c).stepDone k n

/-- An instruction of core `n` writes `v` to its RD and goes on to the next word. -/
def State.writesRD (s : State) (n k : Nat) (w v : W64) : State :=
  s.leaves n k (((s.core k).setS (fRD w) v).advance)

/-- Where a core stands among others after a step: nothing but the registers and the PC of slot `k` differs, and of
the registers only number `r`. -/
def OnlyRegister (s t : State) (k r : Nat) : Prop :=
  t = { s with cores := t.cores } ∧ (∀ j, j ≠ k → t.core j = s.core j) ∧
  t.core k = { s.core k with sregs := (t.core k).sregs, pc := (t.core k).pc } ∧
  ∀ i, i ≠ r → (t.core k).S i = (s.core k).S i

/-- The instructions that write RD alone, with their opcodes, their reserved bits, and the bytes that a load reads. -/
def registerWriters : List ((Nat → Instr) × Nat × Nat × Nat) :=
  [(.add, 0x01, resvR, 0), (.sub, 0x02, resvR, 0), (.and, 0x03, resvR, 0), (.or, 0x04, resvR, 0), (.xor, 0x05, resvR, 0),
   (.sll, 0x06, resvR, 0), (.srl, 0x07, resvR, 0), (.sra, 0x08, resvR, 0), (.slt, 0x09, resvR, 0), (.sltu, 0x0A, resvR, 0),
   (.addi, 0x11, resvI, 0), (.andi, 0x13, resvI, 0), (.ori, 0x14, resvI, 0), (.xori, 0x15, resvI, 0),
   (.slli, 0x16, resvShiftI, 0), (.srli, 0x17, resvShiftI, 0), (.srai, 0x18, resvShiftI, 0), (.slti, 0x19, resvI, 0),
   (.sltiu, 0x1A, resvI, 0), (.li, 0x1B, resvLI, 0), (.lih, 0x1C, resvLI, 0), (.mul, 0x20, resvR, 0), (.mulh, 0x21, resvR, 0),
   (.mulhu, 0x22, resvR, 0), (.div, 0x24, resvR, 0), (.divu, 0x25, resvR, 0), (.rem, 0x26, resvR, 0), (.remu, 0x27, resvR, 0),
   (.ldB, 0x30, resvI, 1), (.ldH, 0x31, resvI, 2), (.ldW, 0x32, resvI, 4), (.ldD, 0x33, resvI, 8),
   (.lduB, 0x34, resvI, 1), (.lduH, 0x35, resvI, 2), (.lduW, 0x36, resvI, 4)]

/-! ### Engine commands -/

/-- Logical core `n` is up in slot `k`. -/
def Serves (s : State) (n k : Nat) : Prop := s.phase = .up ∧ s.slotOf n = some k

/-- The signal of a completed command, where it goes to a semaphore of its own core and does not overflow it: the
semaphore rises by SIGCNT, and no other changes. -/
def Signalled (s t : State) (k : Nat) (cmd : Cmd) : Prop :=
  (cmd.sig = true → cmd.rsig = false → (s.core k).sem cmd.sem + cmd.sigcnt ≤ 65535 →
    (t.core k).sem cmd.sem = (s.core k).sem cmd.sem + cmd.sigcnt ∧
    ∀ i, i ≠ cmd.sem → (t.core k).sem i = (s.core k).sem i) ∧
  (cmd.sig = false → (t.core k).sems = (s.core k).sems)

end Sys2Proof.Machine
end

