-- ==== Sys2Proof/Certificates/Slice0/Obligations.lean ====
section
/-!
DEFINITION. The statements for the provers.
-/

open Sys2Proof Sys2Proof.Machine

/-- A step takes the command at the front of the queue and is exec of it on the state with the queue's rest; on an empty
queue the block idles, which is the model's choice (log 3). -/
def Obligations.StepRunsFront : Prop :=
  (∀ (c : Instr) (rest : List Instr) (s : State), s.pending = c :: rest → step s = exec c { s with pending := rest }) ∧
  ∀ s : State, s.pending = [] → step s = .next s

/-- The state after reset has its memory and its register file in canonical form. -/
def Obligations.ResetCanonical : Prop := State.reset.canonical

/-- Every step keeps memory and the register file in canonical form. -/
def Obligations.StepKeepsCanonical : Prop :=
  ∀ s t : State, s.canonical → step s = .next t → t.canonical

/-- No command touches the queue: what waits behind the command at the front is what waits after the step. -/
def Obligations.ExecKeepsQueue : Prop :=
  ∀ (c : Instr) (s t : State), exec c s = .next t → t.pending = s.pending

/-- Table XR-2: what the integer and multiply instructions write to RD; NOP writes nothing. Each then goes on to the next
word. Shifts use the low six bits of their amount, SLTIU compares with the sign-extended IMM as unsigned numbers, and LIH
keeps the low half of RD (R127, R128). -/
def Obligations.IntegerInstructions : Prop :=
  ∀ (s : State) (n k : Nat) (w : W64), Fetches s n k w →
    let a := (s.core k).S (fRS1 w)
    let b := (s.core k).S (fRS2 w)
    let m := fImmS w
    let put (i : Instr) (v : W64) : Prop := exec i s = .next (s.writesRD n k w v)
    let opc (o resv : Nat) : Prop := opcodeOf w = o ∧ clearOf w resv = true
    (opc 0x00 resvNone → exec (.nop n) s = .next (s.leaves n k (s.core k).advance)) ∧
    (opc 0x01 resvR → put (.add n) (a + b)) ∧
    (opc 0x02 resvR → put (.sub n) (a - b)) ∧
    (opc 0x03 resvR → put (.and n) (a &&& b)) ∧
    (opc 0x04 resvR → put (.or n) (a ||| b)) ∧
    (opc 0x05 resvR → put (.xor n) (a ^^^ b)) ∧
    (opc 0x06 resvR → put (.sll n) (a <<< (b.toNat % 64))) ∧
    (opc 0x07 resvR → put (.srl n) (a >>> (b.toNat % 64))) ∧
    (opc 0x08 resvR → put (.sra n) (a.sshiftRight (b.toNat % 64))) ∧
    (opc 0x09 resvR → put (.slt n) (if a.toInt < b.toInt then 1#64 else 0#64)) ∧
    (opc 0x0A resvR → put (.sltu n) (if a.toNat < b.toNat then 1#64 else 0#64)) ∧
    (opc 0x11 resvI → put (.addi n) (a + m)) ∧
    (opc 0x13 resvI → put (.andi n) (a &&& m)) ∧
    (opc 0x14 resvI → put (.ori n) (a ||| m)) ∧
    (opc 0x15 resvI → put (.xori n) (a ^^^ m)) ∧
    (opc 0x16 resvShiftI → put (.slli n) (a <<< (fImm w % 64))) ∧
    (opc 0x17 resvShiftI → put (.srli n) (a >>> (fImm w % 64))) ∧
    (opc 0x18 resvShiftI → put (.srai n) (a.sshiftRight (fImm w % 64))) ∧
    (opc 0x19 resvI → put (.slti n) (if a.toInt < m.toInt then 1#64 else 0#64)) ∧
    (opc 0x1A resvI → put (.sltiu n) (if a.toNat < m.toNat then 1#64 else 0#64)) ∧
    (opc 0x1B resvLI → put (.li n) m) ∧
    (opc 0x1C resvLI → put (.lih n) (BitVec.ofNat 64 (fImm w * 2 ^ 32 + ((s.core k).S (fRD w)).toNat % 2 ^ 32))) ∧
    (opc 0x20 resvR → put (.mul n) (BitVec.ofNat 64 (a.toNat * b.toNat))) ∧
    (opc 0x21 resvR → put (.mulh n) (BitVec.ofInt 64 (a.toInt * b.toInt / 2 ^ 64))) ∧
    (opc 0x22 resvR → put (.mulhu n) (BitVec.ofNat 64 (a.toNat * b.toNat / 2 ^ 64)))

/-- R129: division truncates towards zero and the remainder's sign follows the dividend; a zero divisor gives a quotient
of all ones and leaves the dividend; the most negative number by -1 gives itself and remainder 0; no case faults. -/
def Obligations.Division : Prop :=
  ∀ (s : State) (n k : Nat) (w : W64), Fetches s n k w → clearOf w resvR = true →
    let a := (s.core k).S (fRS1 w)
    let b := (s.core k).S (fRS2 w)
    let put (o : Nat) (i : Instr) (v : W64) : Prop := opcodeOf w = o → exec i s = .next (s.writesRD n k w v)
    (b ≠ 0#64 →
      put 0x24 (.div n) (BitVec.ofInt 64 (a.toInt.tdiv b.toInt)) ∧ put 0x25 (.divu n) (BitVec.ofNat 64 (a.toNat / b.toNat)) ∧
      put 0x26 (.rem n) (BitVec.ofInt 64 (a.toInt.tmod b.toInt)) ∧ put 0x27 (.remu n) (BitVec.ofNat 64 (a.toNat % b.toNat))) ∧
    (b = 0#64 →
      put 0x24 (.div n) (BitVec.allOnes 64) ∧ put 0x25 (.divu n) (BitVec.allOnes 64) ∧
      put 0x26 (.rem n) a ∧ put 0x27 (.remu n) a) ∧
    (a = BitVec.ofInt 64 (-2 ^ 63) → b = BitVec.ofInt 64 (-1) → put 0x24 (.div n) a ∧ put 0x26 (.rem n) 0#64)

/-- R90, R130: the address is S[RS1] + IMM modulo 2^64 with the bits below the access size ignored; at or above STORE_TOP
the access faults with LENGTH_BOUNDS. A load of bytes without an error completes and writes RD, sign-extended, or
zero-extended for LDU; R31: one of a byte with an uncorrectable error faults with UNCORRECTABLE_ECC and leaves RD. -/
def Obligations.Loads : Prop :=
  ∀ (s : State) (n k : Nat) (w : W64), Fetches s n k w → clearOf w resvI = true →
    let addr (size : Nat) : Nat := ((s.core k).S (fRS1 w) + fImmS w).toNat / size * size
    let val (size : Nat) : Nat := s.ldN (storeBase n + addr size) size
    let signed (size : Nat) : W64 :=
      BitVec.ofInt 64 (if val size < 2 ^ (8 * size - 1) then (val size : Int) else val size - 2 ^ (8 * size))
    let load (o size : Nat) (i : Instr) (v : W64) : Prop := opcodeOf w = o →
      (addr size < (s.core k).storeTop → s.ueHit (storeBase n + addr size) size = false → exec i s = .next (s.writesRD n k w v)) ∧
      (addr size < (s.core k).storeTop → s.ueHit (storeBase n + addr size) size = true →
        exec i s = .next ((s.logStoreUe n (addr size)).tfault k n (s.core k) rUncorrectable (addr size) 3) ∧
        ∀ r, (((s.logStoreUe n (addr size)).tfault k n (s.core k) rUncorrectable (addr size) 3).core k).S r = (s.core k).S r) ∧
      ((s.core k).storeTop ≤ addr size → exec i s = .next (s.tfault k n (s.core k) rLengthBounds (addr size) 3))
    load 0x30 1 (.ldB n) (signed 1) ∧ load 0x31 2 (.ldH n) (signed 2) ∧ load 0x32 4 (.ldW n) (signed 4) ∧
    load 0x33 8 (.ldD n) (signed 8) ∧ load 0x34 1 (.lduB n) (BitVec.ofNat 64 (val 1)) ∧
    load 0x35 2 (.lduH n) (BitVec.ofNat 64 (val 2)) ∧ load 0x36 4 (.lduW n) (BitVec.ofNat 64 (val 4))

/-- R90, R130: a store writes the low bytes of S[RS2], the least significant first, at its address in the core's own
store and changes no other byte of memory; at or above STORE_TOP it faults with LENGTH_BOUNDS and writes nothing. R264: a
place whose errors a store does not cover whole keeps them, and no place gains one. -/
def Obligations.Stores : Prop :=
  ∀ (s : State) (n k : Nat) (w : W64), Fetches s n k w → clearOf w resvS = true →
    let addr (size : Nat) : Nat := ((s.core k).S (fRS1 w) + fImmS w).toNat / size * size
    let x := ((s.core k).S (fRS2 w)).toNat
    let store (o size : Nat) (i : Instr) : Prop := opcodeOf w = o →
      (addr size < (s.core k).storeTop →
        ∃ t : State, exec i s = .next (t.leaves n k (s.core k).advance) ∧ t = { s with mem := t.mem, ue := t.ue } ∧
          (∀ e, e ∈ t.ue ↔ e ∈ s.ue ∧ ¬ (storeBase n + addr size ≤ e.1 ∧ e.1 + e.2 ≤ storeBase n + addr size + size)) ∧
          (∀ j, j < size → t.ld8 (storeBase n + addr size + j) = x / 256 ^ j % 256) ∧
          ∀ a, (∀ j, j < size → a ≠ storeBase n + addr size + j) → t.ld8 a = s.ld8 a) ∧
      ((s.core k).storeTop ≤ addr size →
        exec i s = .next (s.tfault k n (s.core k) rLengthBounds (addr size) 3) ∧
        (s.tfault k n (s.core k) rLengthBounds (addr size) 3).mem = s.mem)
    store 0x38 1 (.stB n) ∧ store 0x39 2 (.stH n) ∧ store 0x3A 4 (.stW n) ∧ store 0x3B 8 (.stD n)

/-- R131: branches compare S[RS1] with S[RS2], signed or unsigned, and go to IMM[12:0] or on to the next word; JAL and JALR
write the index of the next word to RD; a JALR whose sum is not below 8,192 faults and leaves RD. A reserved bit that is set
faults, and so does an instruction fetched at a target beyond the last loaded word. -/
def Obligations.BranchesAndJumps : Prop :=
  ∀ (s : State) (n k : Nat) (w : W64), Fetches s n k w →
    let c := s.core k
    let a := c.S (fRS1 w)
    let b := c.S (fRS2 w)
    let target := w.toNat % 8192
    let link : W64 := BitVec.ofNat 64 (c.pc + 1)
    let sum := (a + fImmS w).toNat
    let branch (o : Nat) (i : Instr) (p : Prop) : Prop := opcodeOf w = o → clearOf w resvBranch = true →
      (p → exec i s = .next (s.leaves n k { c with pc := target })) ∧
      (¬ p → exec i s = .next (s.leaves n k { c with pc := c.pc + 1 }))
    branch 0x40 (.beq n) (a = b) ∧ branch 0x41 (.bne n) (a ≠ b) ∧
    branch 0x42 (.blt n) (a.toInt < b.toInt) ∧ branch 0x43 (.bge n) (b.toInt ≤ a.toInt) ∧
    branch 0x44 (.bltu n) (a.toNat < b.toNat) ∧ branch 0x45 (.bgeu n) (b.toNat ≤ a.toNat) ∧
    (opcodeOf w = 0x48 → clearOf w resvJal = true →
      exec (.jal n) s = .next (s.leaves n k { c.setS (fRD w) link with pc := target })) ∧
    (opcodeOf w = 0x49 → clearOf w resvI = true →
      (sum < 8192 → exec (.jalr n) s = .next (s.leaves n k { c.setS (fRD w) link with pc := sum })) ∧
      (8192 ≤ sum → exec (.jalr n) s = .next (s.tfault k n c rLengthBounds sum 3) ∧
        ∀ i, ((s.tfault k n c rLengthBounds sum 3).core k).S i = c.S i)) ∧
    (∀ e ∈ [(0x40, resvBranch, Instr.beq n), (0x41, resvBranch, .bne n), (0x42, resvBranch, .blt n), (0x43, resvBranch, .bge n),
        (0x44, resvBranch, .bltu n), (0x45, resvBranch, .bgeu n), (0x48, resvJal, .jal n), (0x49, resvI, .jalr n)],
      opcodeOf w = e.1 → clearOf w e.2.1 = false → exec e.2.2 s = .next (s.tfault k n c rIllegalShape (w.toNat / 2 ^ 32) 3)) ∧
    ((s.core k).stepping = false → ∀ dest, c.nInst ≤ dest → ∀ e ∈ registerWriters,
      let t := s.leaves n k { c with pc := dest }
      exec (e.1 n) t = .next (t.tfault k n (t.core k) rLengthBounds dest 3))

/-- R123, R132, Table XM-7: CSRR reads the CSRs of the core, faults with ILLEGAL_SHAPE on an undefined number, and for
BUDGET_LEFT gives some value within the core's budget; CSRW changes CTAG alone; TAG replaces both fields of CTAG. The
model's own reading enters in: the free value of BUDGET_LEFT and CSRs read as they stand (logs 6, 15, 26). -/
def Obligations.CsrsAndTags : Prop :=
  ∀ (s : State) (n k : Nat) (w : W64), Fetches s n k w →
    let c := s.core k
    let num := w.toNat % 4096
    let v := c.S (fRS1 w)
    (opcodeOf w = 0x50 → clearOf w resvCsrr = true →
      (∀ e ∈ [(0x000, n + 256 * (n / 8)), (0x001, s.tick), (0x003, c.epoch), (0x010, c.ctag + (if c.auto then 2 ^ 16 else 0)),
              (0x011, c.cmdcnt), (0x020, c.split.toNat), (0x021, c.storeTop), (0x030, c.fault.cause), (0x031, c.fault.info)],
        num = e.1 → exec (.csrr n) s = .next (s.writesRD n k w (BitVec.ofNat 64 e.2))) ∧
      (∀ q, q < 32 → num = 0x040 + q → exec (.csrr n) s = .next (s.writesRD n k w (BitVec.ofNat 64 (c.queue q).state))) ∧
      (num = 0x002 → ∃ x, x ≤ (tget (fun _ => (0 : Int)) s.budget n).toNat ∧
        exec (.csrr n) s = .next ((s.setCore k ((c.setS (fRD w) (BitVec.ofNat 64 x)).advance)).used1.stepDone k n)) ∧
      (num ∉ [0x000, 0x001, 0x002, 0x003, 0x010, 0x011, 0x020, 0x021, 0x030, 0x031] → (num < 0x040 ∨ 0x060 ≤ num) →
        exec (.csrr n) s = .next (s.tfault k n c rIllegalShape num 3))) ∧
    (opcodeOf w = 0x51 → clearOf w resvCsrw = true →
      (num = 0x010 → exec (.csrw n) s =
        .next (s.leaves n k { c with ctag := v.toNat % 2 ^ 16, auto := v.getLsbD 16, pc := c.pc + 1 })) ∧
      (num ≠ 0x010 → exec (.csrw n) s = .next (s.leaves n k { c with pc := c.pc + 1 }))) ∧
    (opcodeOf w = 0x52 → clearOf w resvTag = true → exec (.setTag n) s =
      .next (s.leaves n k { c with ctag := w.toNat % 2 ^ 16, auto := w.getLsbD 16, pc := c.pc + 1 }))

/-- R99, R100, R133: SALLOC gives the old STORE_TOP and raises it by the size rounded up to 64 bytes, or faults with
STORE_OVERFLOW; SRESET sets STORE_TOP to a multiple of 64 between the static size and STORE_TOP, or faults with
LENGTH_BOUNDS. A fault leaves STORE_TOP; a nonzero IMM faults with ILLEGAL_SHAPE. -/
def Obligations.StoreSpace : Prop :=
  ∀ (s : State) (n k : Nat) (w : W64), Fetches s n k w →
    let c := s.core k
    let v := (c.S (fRS1 w)).toNat
    let top := c.storeTop + (v + 63) / 64 * 64
    (opcodeOf w = 0x58 → clearOf w resvSalloc = true →
      (top ≤ 0x180000 → exec (.salloc n) s =
        .next (s.leaves n k { c.setS (fRD w) (BitVec.ofNat 64 c.storeTop) with storeTop := top, pc := c.pc + 1 })) ∧
      (0x180000 < top → exec (.salloc n) s = .next (s.tfault k n c rStoreOverflow c.storeTop 3) ∧
        ((s.tfault k n c rStoreOverflow c.storeTop 3).core k).storeTop = c.storeTop)) ∧
    (opcodeOf w = 0x58 → clearOf w resvSalloc = false → exec (.salloc n) s = .next (s.tfault k n c rIllegalShape (w.toNat / 2 ^ 32) 3)) ∧
    (opcodeOf w = 0x59 → clearOf w resvSreset = false → exec (.sreset n) s = .next (s.tfault k n c rIllegalShape (w.toNat / 2 ^ 32) 3)) ∧
    (opcodeOf w = 0x59 → clearOf w resvSreset = true →
      (v % 64 = 0 ∧ c.staticSize ≤ v ∧ v ≤ c.storeTop →
        exec (.sreset n) s = .next (s.leaves n k { c with storeTop := v, pc := c.pc + 1 })) ∧
      (¬ (v % 64 = 0 ∧ c.staticSize ≤ v ∧ v ≤ c.storeTop) →
        exec (.sreset n) s = .next (s.tfault k n c rLengthBounds v 3) ∧
          ((s.tfault k n c rLengthBounds v 3).core k).storeTop = c.storeTop))

/-- R102, R106, R134: QCFG writes a queue's descriptor and leaves it empty, waiting while the queue holds entries; QADV.T
commits k elements at the tail and QADV.H takes k from the head; a k of 0 does nothing, and more than the queue's space
or elements faults with QUEUE_OVERFLOW. -/
def Obligations.QueueInstructions : Prop :=
  ∀ (s : State) (n k : Nat) (w : W64), Fetches s n k w →
    let c := s.core k
    let q := w.toNat % 32
    let x := c.queue q
    let d := c.S (fRS1 w)
    let m := qadvCount c w
    (opcodeOf w = 0x60 → clearOf w resvQcfg = true → qcfgCheck d q c.storeTop = none →
      (x.els = [] → exec (.qcfg n) s = .next (s.leaves n k
        (c.setQueue q { depth := bits d 60 48, esize := bits d 47 45, zc := bit d 44, base := bits d 20 6 * 64 }).advance)) ∧
      (x.els ≠ [] → exec (.qcfg n) s = .next s)) ∧
    (opcodeOf w = 0x60 → clearOf w resvQcfg = true → ∀ r det, qcfgCheck d q c.storeTop = some (r, det) →
      exec (.qcfg n) s = .next (s.tfault k n c r det 3)) ∧
    (opcodeOf w = 0x61 → clearOf w resvQadv = true → x.zc = false →
      (m = 0 → exec (.qadvT n) s = .next (s.leaves n k c.advance)) ∧
      (0 < m → m ≤ 4096 → x.els.length + m ≤ x.depth → exec (.qadvT n) s = .next (s.leaves n k
        (c.setQueue q { x with els := x.els ++ List.replicate m (x.slotBytes, true) }).advance)) ∧
      (0 < m → 4096 < m ∨ x.depth < x.els.length + m →
        exec (.qadvT n) s = .next (s.tfault k n c rQueueOverflow q 3))) ∧
    (opcodeOf w = 0x62 → clearOf w resvQadv = true → x.zc = false →
      (m = 0 → exec (.qadvH n) s = .next (s.leaves n k c.advance)) ∧
      (0 < m → m ≤ 4096 → m ≤ x.count → exec (.qadvH n) s = .next (s.leaves n k
        (c.setQueue q { x with head := (x.head + m * x.slotBytes) % x.ring, els := x.els.drop m }).advance)) ∧
      (0 < m → 4096 < m ∨ x.count < m → exec (.qadvH n) s = .next (s.tfault k n c rQueueOverflow q 3)))

/-- R114, R115, R117, R136: WAIT subtracts k once the count is at least k and stalls below it; a stalled WAIT that finds the
count ends the same way; SIGNAL of a semaphore of its own adds k, or faults with SEM_OVERFLOW where the count would exceed
65,535; SIGNAL of another core of the partition sends k to it. The model's own reading enters in: a stalled WAIT is
completed by WAIT_SATISFIED (log 11). -/
def Obligations.WaitAndSignal : Prop :=
  (∀ (s : State) (n k : Nat) (w : W64), Fetches s n k w → clearOf w resvY = true →
    let c := s.core k
    let sem := bits w 54 49
    let m := yCount c w
    let target := (c.S (bits w 48 44) + BitVec.ofNat 64 (bits w 23 16)).toNat
    (opcodeOf w = 0x71 → bit w 55 = false → yLocalResv w = true → m ≤ 65535 →
      (m ≤ c.sem sem → exec (.waitSem n) s = .next (s.leaves n k (c.setSem sem (c.sem sem - m)).advance)) ∧
      (c.sem sem < m → ∃ t, exec (.waitSem n) s = .next t ∧ t.core k = { c with wait := some (sem, m) })) ∧
    (opcodeOf w = 0x72 → bit w 55 = false → yLocalResv w = true → m ≤ 65535 →
      (c.sem sem + m ≤ 65535 →
        exec (.signalSem n) s = .next (s.leaves n k (c.setSem sem (c.sem sem + m)).advance)) ∧
      (65535 < c.sem sem + m → exec (.signalSem n) s = .next (s.tfault k n c rSemOverflow sem 3))) ∧
    (opcodeOf w = 0x72 → bit w 55 = true → m ≤ 65535 → m ≠ 0 → target ≠ n → s.targetCheck n target = none →
      let g : Sig := { src := n, dst := target, sem := sem, amount := m, source := 0, cmdcnt := c.cmdcnt, tag := c.ctag,
                       pc := c.pc, overflow := false }
      exec (.signalSem n) s =
        .next (({ s with sigs := s.sigs ++ [g] } : State).leaves n k { c with outstanding := c.outstanding + 1, pc := c.pc + 1 })) ∧
    (opcodeOf w = 0x72 → bit w 55 = true → m ≤ 65535 → ∀ r, s.targetCheck n target = some r →
      exec (.signalSem n) s = .next (s.tfault k n c r target 3))) ∧
  ∀ (s : State) (n k sem m : Nat), s.phase = .up → s.slotOf n = some k → (s.core k).run = true →
    (s.core k).stopped = false → (s.core k).wait = some (sem, m) → m ≤ (s.core k).sem sem → (s.core k).stepping = false →
    ∃ t, exec (.waitSatisfied n) s = .next t ∧ t.core k =
      { (s.core k).setSem sem ((s.core k).sem sem - m) with wait := none, pc := (s.core k).pc + 1 }

/-- R98, R138: HALT stops the Teamster on itself; BRK stops the core for the debugger with its PC on it, and shows the cause and
the code in DBG_CORE_STATUS, whatever session is open. The model's own reading enters in: a core runs one word to a command
(log 10). -/
def Obligations.HaltAndBrk : Prop :=
  ∀ (s : State) (n k : Nat) (w : W64), Fetches s n k w →
    (opcodeOf w = 0xF0 → clearOf w resvNone = true →
      ∃ t, exec (.halt n) s = .next t ∧ t.core k = { s.core k with run := false } ∧ t.mem = s.mem) ∧
    (opcodeOf w = 0xF1 → clearOf w resvBrk = true →
      ∃ t, exec (.brk n) s = .next t ∧ t.core k = { s.core k with stopped := true, stepping := false } ∧
        t.getF (F.DBG_CORE_STATUS_CAUSE k) = 1 ∧ t.getF (F.DBG_CORE_STATUS_CODE k) = w.toNat % 2 ^ 16 ∧ t.mem = s.mem)

/-- R125: a word whose opcode Table XR-2 does not assign, or one with a reserved bit set, faults with ILLEGAL_SHAPE and the
word's upper half in DETAIL. R92: so does a PC beyond the last word loaded, with LENGTH_BOUNDS. -/
def Obligations.IllegalInstructions : Prop :=
  (∀ (s : State) (n k : Nat) (w : W64), Fetches s n k w →
    (opcodeOf w ∉ assignedOpcodes →
      exec (.unassignedOpcode n) s = .next (s.tfault k n (s.core k) rIllegalShape (w.toNat / 2 ^ 32) 3)) ∧
    ∀ e ∈ registerWriters, opcodeOf w = e.2.1 → clearOf w e.2.2.1 = false →
      exec (e.1 n) s = .next (s.tfault k n (s.core k) rIllegalShape (w.toNat / 2 ^ 32) 3)) ∧
  ∀ (s : State) (n k : Nat), s.phase = .up → s.slotOf n = some k → (s.core k).run = true → (s.core k).stopped = false →
    (s.core k).wait = none → (s.core k).nInst ≤ (s.core k).pc → ∀ e ∈ registerWriters,
      exec (e.1 n) s = .next (s.tfault k n (s.core k) rLengthBounds (s.core k).pc 3)

/-- R122: a fault of a Teamster stops the core with PC on the instruction, discards the commands that have not begun, records
the first fault with reason, tag and PC, only counts a later one, and latches its report for the snapshot. The model's own
reading enters in: a fault is a next state that keeps its record (log 13). -/
def Obligations.FaultStopsCore : Prop :=
  ∀ (s : State) (n k reason detail : Nat), reason ≠ rUncorrectable → reason ≠ rIntegrity →
    let c := s.core k
    let t := s.tfault k n c reason detail 3
    (t.core k).run = false ∧ (t.core k).faulted = true ∧ (t.core k).pc = c.pc ∧ (t.core k).sems = c.sems ∧
    (∀ i, (t.core k).S i = c.S i) ∧
    (t.core k).mq = [] ∧ (t.core k).xq = [] ∧ (t.core k).vq = [] ∧ (t.core k).dq = [] ∧ (t.core k).kq = [] ∧
    (∀ x ∈ (t.team (k / 9)).eq ++ (t.team (k / 9)).fq, x.core ≠ n) ∧
    (c.fault.valid = false → (t.core k).fault =
      { reason := reason, source := 0, valid := true, more := 0, cmdcnt := c.cmdcnt, tag := c.ctag, pc := c.pc % 8192,
        detail := detail % 2 ^ 32 }) ∧
    (c.fault.valid = true → (t.core k).fault = { c.fault with more := min 7 (c.fault.more + 1) }) ∧
    t.events = s.events ++ [.coreFault k] ∧ t.mem = s.mem ∧ ∀ j, j ≠ k → t.core j = s.core j

/-- The frame of the instructions that write RD alone: no other register of the core, no other core, no semaphore, queue
or CSR, no CFG register and no byte of memory changes; S0 stays 0. (A STEP in progress also stops the core: R493.) -/
def Obligations.ScalarFrame : Prop :=
  ∀ (s : State) (n k : Nat) (w : W64), Fetches s n k w → (s.core k).stepping = false →
    ∀ e ∈ registerWriters, opcodeOf w = e.2.1 → clearOf w e.2.2.1 = true →
      (e.2.2.2 = 0 ∨ (lsAddr (s.core k) w e.2.2.2 < (s.core k).storeTop ∧
        s.ueHit (storeBase n + lsAddr (s.core k) w e.2.2.2) e.2.2.2 = false)) →
      ∃ t, exec (e.1 n) s = .next t ∧ OnlyRegister s t k (fRD w) ∧ (t.core k).pc = (s.core k).pc + 1 ∧
        (∀ a, t.ld8 a = s.ld8 a) ∧ (t.core k).S 0 = 0#64

/-- R110, R113: an ISSUE that finds space and passes its checks takes the next command count, stamps the tag last set (and
advances it under AUTO), and puts the command at the end of the queue it names; a full queue makes it wait, and a failed
check faults it. R126: so does a field of a patch that is not enabled where it is not 0. The model's own reading enters in: an
ISSUE that finds no room is tried again, and the order of the checks (logs 11, 12). -/
def Obligations.Issue : Prop :=
  ∀ (s : State) (n k : Nat) (w : W64), Fetches s n k w → opcodeOf w = 0x70 → clearOf w resvIssue = true →
    let c := s.core k
    let cq := bits w 55 53
    let a := templateAddr c w
    let cmd := s.buildCmd n c w a
    (patchesOk w = false → exec (.issue n) s = .next (s.tfault k n c rIllegalShape (w.toNat / 2 ^ 32) 3)) ∧
    (patchesOk w = true → cq = 7 → exec (.issue n) s = .next (s.tfault k n c rIllegalShape (w.toNat / 2 ^ 32) 4)) ∧
    (patchesOk w = true → cq < 5 →
      (s.cqRoom n c cq = false → exec (.issue n) s = .next s) ∧
      (s.cqRoom n c cq = true → a + 32 ≤ c.storeTop → s.ueHit (storeBase n + a) 32 = false →
        (issueCheck s n c cq cmd = none → ∃ t, exec (.issue n) s = .next t ∧
          (t.core k).cq cq = c.cq cq ++ [cmd] ∧ (t.core k).cmdcnt = (c.cmdcnt + 1) % 2 ^ 48 ∧
          (t.core k).ctag = (if c.auto then (c.ctag + 1) % 65536 else c.ctag) ∧ (t.core k).pc = c.pc + 1 ∧
          cmd.tag = c.ctag % 65536 ∧ t.mem = s.mem) ∧
        (∀ r d, issueCheck s n c cq cmd = some (r, d) → exec (.issue n) s = .next (s.tfault k n c r d 4))))

/-- R118, R119, R137, Table XM-4: TAKE gives the counter's next index and raises NEXT, or EXHAUSTED with INDEX = LIMIT at
the limit, and writes it to RD; a counter of another epoch, or of no epoch, faults with PERMISSION. -/
def Obligations.Take : Prop :=
  ∀ (s : State) (n k : Nat) (w : W64), Fetches s n k w → opcodeOf w = 0x73 → clearOf w resvI = true →
    let c := s.core k
    let x := (c.S (fRS1 w) + fImmS w).toNat
    let y := tget tally0 (s.team (x / 256)).tally (x % 256)
    (2048 ≤ x → exec (.takeTile n) s = .next (s.tfault k n c rLengthBounds x 3)) ∧
    (x < 2048 → s.teamPresent (x / 256) = true → s.samePart n (8 * (x / 256)) = true → s.teamOn (x / 256) = true →
      (y.epoch ≠ c.epoch ∨ y.epoch = 0 → exec (.takeTile n) s = .next (s.tfault k n c rPermission (x % 256) 3)) ∧
      (y.epoch = c.epoch → y.epoch ≠ 0 → ∃ t, exec (.takeTile n) s = .next t ∧ (t.core k).pc = c.pc + 1 ∧
        (y.limit ≤ y.next → (fRD w ≠ 0 → (t.core k).S (fRD w) = BitVec.ofNat 64 (2 ^ 63 + y.limit)) ∧
          tget tally0 (t.team (x / 256)).tally (x % 256) = y) ∧
        (y.next < y.limit → (fRD w ≠ 0 → ((t.core k).S (fRD w)).toNat % 2 ^ 62 = y.next % 2 ^ 62 ∧
            (y.next < 4096 → ((t.core k).S (fRD w)).getLsbD 62 = y.bitmap.testBit y.next)) ∧
          (tget tally0 (t.team (x / 256)).tally (x % 256)).next = y.next + 1) ∧ t.mem = s.mem))

/-- R112, R256, R526, R527: a remote signal that reaches a core of a Team that is ON and not fenced adds to the semaphore, or is
not applied where the count would exceed 65,535; either way its outcome goes back, and an overflow stops the sender with
SEM_OVERFLOW. A signal to an absent core is dropped. The model's own reading enters in: an access to a Team that is not ON
is held (log 28). -/
def Obligations.RemoteSignals : Prop :=
  (∀ (s : State) (src dst : Nat) (g : Sig) (rest : List Sig), s.phase = .up → takeSig src dst s.sigs = some (g, rest) →
    (∀ k, s.slotOf dst = some k → s.coreFenced dst = false → s.teamOn (dst / 8) = true →
      (((s.core k).sem g.sem + g.amount ≤ 65535 → ∃ t, exec (.remoteSignalArrive src dst) s = .next t ∧
        (t.core k).sem g.sem = (s.core k).sem g.sem + g.amount ∧
        (∀ i, i ≠ g.sem → (t.core k).sem i = (s.core k).sem i) ∧ t.sigs = rest ∧ t.outcomes = s.outcomes ++ [g]) ∧
      (65535 < (s.core k).sem g.sem + g.amount → exec (.remoteSignalArrive src dst) s =
        .next { s with sigs := rest, outcomes := s.outcomes ++ [{ g with overflow := true }] }))) ∧
    (s.slotOf dst = none → ∃ t, exec (.remoteSignalArrive src dst) s = .next t ∧
      t.cores = s.cores ∧ t.sigs = rest ∧ t.outcomes = s.outcomes ++ [g])) ∧
  ∀ (s : State) (src dst k : Nat) (g : Sig) (rest : List Sig), s.phase = .up → s.slotOf src = some k →
    takeSig src dst s.outcomes = some (g, rest) → ∃ t, exec (.signalOutcomeReturn src dst) s = .next t ∧
      (t.core k).outstanding = (s.core k).outstanding - 1 ∧ t.outcomes = rest ∧
      (g.overflow = true → (t.core k).run = false ∧
        ((s.core k).fault.valid = false → (t.core k).fault.reason = rSemOverflow)) ∧
      (g.overflow = false → (t.core k).run = (s.core k).run)

/-- R65, R66, R71, R186: an MMUL of one INT8 row of array 0, read from a buffer, against the weights kept, sets (FIRST) or adds
(MIDDLE) the row's INT32 sums in its tile, modulo 2^32, with zero contribution beyond N; then it has landed. R148: an MDRAIN
of one INT32 row through the slot's reset contents writes the 64 sums to its buffer and leaves every other byte. The model's
own reading enters in: an engine command takes effect in one step and then awaits its completion (logs 10, 15). -/
def Obligations.MatrixRows : Prop :=
  (∀ (s : State) (n k tile : Nat) (tm : MxTiming) (cmd : Cmd) (rest : List Cmd), Serves s n k →
    let c := s.core k
    let a := storeBase n + arrBuf cmd.w2 0
    c.actM = none → c.mq = cmd :: rest → s.mayBegin k cmd = true → cmd.opc = 0x10 → cmd.keep = true → cmd.pass ≤ 1 →
    cmd.fmt = 0 → cmd.amask = 1 → cmd.mRows = 1 → 1 ≤ cmd.kElems → cmd.kElems ≤ 64 → 1 ≤ cmd.nCols → cmd.nCols ≤ 64 →
    cmd.abuf = true → c.tiles cmd.handle = [tile] → (cmd.pass = 0 → cmd.ntiles = 1) → c.bad = [] →
    (∀ j, c.job = some j → (s.job j).guardMode = 0) → s.ueHit a 64 = false →
    ∃ t, exec (.mmul n tm) s = .next t ∧ (t.core k).actM = none ∧ (t.core k).mq = rest ∧
      (∃ x, (t.core k).landM = c.landM ++ [x] ∧ x.cmd = cmd ∧ x.full = true) ∧ t.mem = s.mem ∧
      ∀ j, j < 64 →
        let dot := sumInt ((List.range cmd.kElems).map fun i =>
          signedOf 8 (s.ld8 (a + i)) * signedOf 8 (c.weights.getD (64 * i + j) 0))
        tget acc0 (t.core k).acc (accKey 0 tile 0 j) =
          (if j < cmd.nCols then BitVec.ofInt 32 dot else 0#32) +
          (if cmd.pass = 1 then tget acc0 c.acc (accKey 0 tile 0 j) else 0#32)) ∧
  ∀ (s : State) (n k tile : Nat) (tm : MxTiming) (cmd : Cmd) (rest : List Cmd), Serves s n k →
    let c := s.core k
    let a := storeBase n + arrBuf cmd.w3 0
    c.actM = none → c.mq = cmd :: rest → s.mayBegin k cmd = true → c.landM = [] → cmd.opc = 0x12 → cmd.amask = 1 →
    cmd.mRows = 1 → cmd.dbuf = true → c.tiles cmd.handle = [tile] → cmd.handle ∈ c.intHandles → c.cr cmd.xslot = {} →
    c.xq = [] → c.actX = none → c.bad = [] → arrBuf cmd.w3 0 + 256 ≤ c.storeTop →
    ∃ t, exec (.mdrain n tm) s = .next t ∧ (t.core k).actM = none ∧ (t.core k).mq = rest ∧
      (∀ j b, j < 64 → b < 4 →
        t.ld8 (a + 4 * j + b) = (tget acc0 c.acc (accKey 0 tile 0 j)).toNat / 256 ^ b % 256) ∧
      ∀ x, (x < a ∨ a + 256 ≤ x) → t.ld8 x = s.ld8 x

/-- R72, R147: MFREE gives a handle's tiles back once no row of it is on its way. R75, R149: XCFG reads its parameter block and,
at its completion, its slot holds the block's words. R465, R466: a replay that passes is a transient, counted; one whose
mismatch persists stops the core with CHECK_MISMATCH and retires it. The model's own reading enters in: mismatches come from
INJECT alone, and XCFG writes its slot at its completion (logs 21, 24). -/
def Obligations.HandlesSlotsGuard : Prop :=
  (∀ (s : State) (n k : Nat) (cmd : Cmd) (rest : List Cmd), Serves s n k → (s.core k).actM = none →
    (s.core k).mq = cmd :: rest → s.mayBegin k cmd = true → cmd.opc = 0x11 → (s.core k).handleBusy cmd.handle = false →
    ∃ t, exec (.mfree n) s = .next t ∧ (t.core k).tiles cmd.handle = [] ∧ (t.core k).mq = rest ∧
      (∀ h, h ≠ cmd.handle → (t.core k).tiles h = (s.core k).tiles h) ∧ t.mem = s.mem) ∧
  (∀ (s : State) (n k : Nat) (cmd : Cmd) (rest : List Cmd), Serves s n k → (s.core k).actX = none →
    (s.core k).xq = cmd :: rest → s.mayBegin k cmd = true → (s.core k).slotBusy (bits cmd.w0 17 16) cmd.cnt = false →
    s.ueHit (storeBase n + bits cmd.w1 20 0) 128 = false →
    checkParamBlock (s.core k).storeTop (s.paramBlock n (bits cmd.w1 20 0)).2 (s.paramBlock n (bits cmd.w1 20 0)).1 = none →
    ∃ t u, exec (.xcfg n) s = .next t ∧ (t.core k).xq = rest ∧ exec (.commandComplete n .xq) t = .next u ∧
      (u.core k).cr (bits cmd.w0 17 16) = (s.paramBlock n (bits cmd.w1 20 0)).1 ∧
      (∀ i, i ≠ bits cmd.w0 17 16 → (u.core k).cr i = (s.core k).cr i) ∧ u.mem = s.mem) ∧
  ∀ (s : State) (n k cycles : Nat) (a : Active), Serves s n k → (s.core k).actM = some a →
    (s.core k).guard.replay = true →
    (∃ t, exec (.guardReplayEnd n false cycles) s = .next t ∧ (t.core k).guard.replay = false ∧
      t.getF F.RAS_CHK_TRANSIENT_COUNT = min (s.getF F.RAS_CHK_TRANSIENT_COUNT + 1) (2 ^ 32 - 1) ∧
      (t.core k).actM = some a ∧ (t.core k).run = (s.core k).run ∧ t.mem = s.mem) ∧
    ∃ t, exec (.guardReplayEnd n true cycles) s = .next t ∧ (t.core k).run = false ∧ (t.core k).retirePending = true ∧
      (t.core k).actM = none ∧ ((s.core k).fault.valid = false → (t.core k).fault.reason = rCheckMismatch) ∧ t.mem = s.mem

/-- R151, R152: a COPY between buffers of the core's own store moves every row from its source stride to its destination stride,
where the two regions lie apart; a FILL repeats the eight bytes of word 1 in every row. Every other byte of memory stays.
The command has then landed. The model's own reading enters in: an engine command takes effect in one step and then awaits
its completion (log 10). -/
def Obligations.DataMover : Prop :=
  ∀ (s : State) (n k src dst : Nat) (cmd : Cmd) (rest : List Cmd), Serves s n k →
    let c := s.core k
    c.actD = none → c.dq = cmd :: rest → s.mayBegin k cmd = true → s.teamOn (n / 8) = true → s.ue = [] →
    cmd.dadd = 0 → 0 < cmd.drows → 0 < cmd.dlen → cmd.dlen ≤ cmd.dstride → refOf cmd.w2 = some (.loc dst) →
    (cmd.dmode = 0 → refOf cmd.w1 = some (.loc src) →
      (src + cmd.drows * cmd.sstride + cmd.dlen ≤ dst ∨ dst + cmd.drows * cmd.dstride ≤ src) →
      ∃ t, exec (.dmove n) s = .next t ∧ (t.core k).actD = none ∧ (t.core k).dq = rest ∧
        (∃ x, (t.core k).landD = c.landD ++ [x] ∧ x.cmd = cmd) ∧
        (∀ i j, i < cmd.drows → j < cmd.dlen →
          t.ld8 (storeBase n + dst + i * cmd.dstride + j) = s.ld8 (storeBase n + src + i * cmd.sstride + j)) ∧
        ∀ x, (∀ i j, i < cmd.drows → j < cmd.dlen → x ≠ storeBase n + dst + i * cmd.dstride + j) → t.ld8 x = s.ld8 x) ∧
    (cmd.dmode = 3 →
      ∃ t, exec (.dmove n) s = .next t ∧ (t.core k).actD = none ∧ (t.core k).dq = rest ∧
        (∀ i j, i < cmd.drows → j < cmd.dlen →
          t.ld8 (storeBase n + dst + i * cmd.dstride + j) = cmd.w1.toNat / 256 ^ (j % 8) % 256) ∧
        ∀ x, (∀ i j, i < cmd.drows → j < cmd.dlen → x ≠ storeBase n + dst + i * cmd.dstride + j) → t.ld8 x = s.ld8 x)

/-- R155, R236, R237: the last element of a KFETCH of native tokens is read from its place in the context's pages and pushed to
the token queue, and the command is then done but for its completion; the last element of a KAPPEND of FP16 tokens is
popped, quantised, and its codes and its scale are stored at the place of its slot. The model's own reading enters in: one
step for each element (log 10). -/
def Obligations.KvTokens : Prop :=
  (∀ (s s1 : State) (n k o so : Nat) (a : Active) (b : List Nat), Serves s n k →
    let p := s.partOf n
    let cmd := a.cmd
    let c := s.kvRead p cmd.kctx
    (s.core k).actK = some a → a.full = false → cmd.opc = 0x40 → c.fmt = 0 → s.kvLayout k cmd c = some .whole →
    cmd.kscen = false → a.done + 1 = cmd.kcount → s.roomAt n cmd.kdq = true → s.ringBad n cmd.kdq = false →
    s.kvPlace p cmd.kctx c (c.unit cmd.klayer cmd.khead cmd.kpart) (cmd.kfirst + a.done) = some (o, so) →
    s.refOff n (.object (s.kvArena p) o) 0 c.rank = none → s.rdObj p (s.kvArena p) o c.rank false = .ok b s1 →
    ∃ t, exec (.kfetch n) s = .next t ∧ (∃ x, (t.core k).actK = some x ∧ x.full = true ∧ x.done = cmd.kcount) ∧
      ((t.core k).queue cmd.kdq).els = ((s.core k).queue cmd.kdq).els ++ [(b.length, true)]) ∧
  ∀ (s s1 s2 t : State) (n k o so : Nat) (a : Active) (b x y : List Nat), Serves s n k →
    let p := s.partOf n
    let cmd := a.cmd
    let c := s.kvRead p cmd.kctx
    (s.core k).actK = some a → a.full = false → cmd.opc = 0x41 → c.fmt = 0 → s.kvLayout k cmd c = some .latents →
    cmd.kscen = false → a.done + 1 = cmd.kcount → a.done < c.pstored → s.popAcc n cmd.kdq = some (.ok b s1) →
    s.kvPlace p cmd.kctx c (c.unit cmd.klayer cmd.khead cmd.kpart) (c.len + a.done) = some (o, so) →
    s.refOff n (.object (s.kvArena p) o) 0 c.rank = none →
    s1.wrObj p (s.kvArena p) o (c.quantise b).1 false = .ok x s2 →
    s2.wrObj p (s.kvArena p) so (c.quantise b).2 false = .ok y t →
    exec (.kappend n) s = .next (t.modCore k fun cr => { cr with actK := some { a with done := cmd.kcount, full := true } })

/-- R174: VCALL loads A0 to A5 from words 1 to 3, clears the loops and starts at its entry. R162 to R165, Table VK-3: a bundle
whose one operation is VIADD issues, moves on to the next bundle, and lands the lane sums modulo 2^32 one cycle later, and
not before. R176, R177: a VWIN of one output position writes its lanes to its buffer, zero beyond C. The model's own reading
enters in: one step for each bundle, and when VLD and hazards count (logs 10, 16). -/
def Obligations.VectorEngine : Prop :=
  (∀ (s : State) (n k : Nat) (cmd : Cmd) (rest : List Cmd), Serves s n k → (s.core k).actV = none →
    (s.core k).vq = cmd :: rest → cmd.opc = 0x70 → s.mayBegin k cmd = true → (s.core k).vec.flights = [] →
    ∃ t, exec (.vcall n) s = .next t ∧ (t.core k).vq = rest ∧ (t.core k).actV = some { cmd := cmd } ∧
      (t.core k).vec.bundle = bits cmd.w0 31 21 ∧ (t.core k).vec.loops = [] ∧ (t.core k).vec.v = (s.core k).vec.v ∧
      (∀ i w, (i, w) ∈ [(0, cmd.w1), (1, cmd.w2), (2, cmd.w3)] →
        (t.core k).vec.areg (2 * i) = w.toNat % 2 ^ 32 ∧ (t.core k).vec.areg (2 * i + 1) = w.toNat / 2 ^ 32) ∧
      t.getF (F.VEC_STATUS_RUNNING k) = 1 ∧ t.mem = s.mem) ∧
  (∀ (s : State) (n k : Nat) (a : Active) (w : BitVec 128), Serves s n k →
    let c := s.core k
    let v := c.vec
    let x := slotOfBundle w 1
    c.actV = some a → a.cmd.opc = 0x70 → v.ended = false → v.flights = [] → v.loops = [] → v.busy = [] →
    v.bundle < c.nBund → c.bad = [] → tget (fun _ => 0#128) c.vim v.bundle = w → bundleResv w = 0 →
    slotOfBundle w 0 = 0 → slotOfBundle w 2 = 0 → fOp x = 0x20 → slotOk 1 x = true →
    ∃ t u, exec (.vectorBundle n) s = .next t ∧ (t.core k).vec.bundle = v.bundle + 1 ∧
      (t.core k).vec.cyc = v.cyc + 1 ∧ (t.core k).vec.v = v.v ∧
      exec (.vectorResultLand n) t = .next u ∧ (u.core k).vec.flights = [] ∧ u.mem = s.mem ∧
      (∀ i, i < 64 → (u.core k).vec.lane (fVD x) i = (v.lane (fVA x) i + v.lane (fVB x) i) % 2 ^ 32) ∧
      ∀ r i, r ≠ fVD x → i < 64 → (u.core k).vec.lane r i = v.lane r i) ∧
  ∀ (s : State) (n k held off : Nat) (cmd : Cmd) (rest : List Cmd), Serves s n k →
    let c := s.core k
    let p := s.winParam n (bits cmd.w1 20 0)
    c.actV = none → c.vq = cmd :: rest → cmd.opc = 0x71 → s.mayBegin k cmd = true → c.vec.flights = [] → s.ue = [] →
    s.checkVwinHead n c.storeTop p = none → p.empty = false → p.oh = 1 → p.ow = 1 → p.out = some (.inl off) →
    ∃ t, exec (.vwin n held) s = .next t ∧ (∃ x, (t.core k).actV = some x ∧ x.full = true) ∧ (t.core k).vq = rest ∧
      (∀ o b, o < 64 → b < 4 → t.ld8 (storeBase n + off + 4 * o + b) =
        (if o < p.c then s.winLane n p 0 0 o else 0) / 256 ^ b % 256) ∧
      ∀ x, (x < storeBase n + off ∨ storeBase n + off + 256 ≤ x) → t.ld8 x = s.ld8 x

/-- R156, R157, R158: on buffers of the issuing core's store, ECONV writes the outputs of its convolution; EBOX writes a list of
the candidates in order, at most MAX of them, with the number written and the number dropped in its header; ENMS a list of
at most MAX of its input's; FFTC the transform of its input. The command then awaits its completion. The model's own reading
enters in: the order of the FFT, which is left free (log 19). -/
def Obligations.TeamEngines : Prop :=
  (∀ (s : State) (tm k i o wt : Nat) (cmd : Cmd), s.phase = .up → s.edgePresent tm = true → (s.team tm).actE = none →
    pickEntry s (s.team tm).eq [] = some cmd → s.slotOf cmd.core = some k → s.ue = [] → s.teamOn (cmd.core / 8) = true →
    s.getF (F.TRACE_CTRL_EN (k / 9)) = 0 →
    let n := cmd.core
    let w (j : Nat) : W64 := s.blockWord n (bits cmd.w1 20 0) j
    let done (t : State) : Prop := (∃ a, (t.team tm).actE = some a ∧ a.cmd = cmd ∧ a.full = true) ∧
      (t.team tm).eq = (s.team tm).eq.erase cmd
    let list (t : State) (count dropped : Nat) : Prop :=
      t.ldN (storeBase n + o) 4 = count % 2 ^ 32 ∧ t.ldN (storeBase n + o + 4) 4 = dropped % 2 ^ 32
    refOf (w 0) = some (.loc i) → refOf (w 1) = some (.loc o) →
    (cmd.opc = 0x50 → refOf (w 2) = some (.loc wt) → cmd.econvEmpty = false →
      checkEconvHead s n (s.core k).storeTop cmd (w 0) (w 1) (w 2) (w 3) = none →
      let out := (s.econvOut n cmd (econvSlot (s.paramBlock n (bits (w 3) 20 0)).1 cmd.eOFMT)
        (s.ldBytes (storeBase n + i) (cmd.eH * cmd.eW * cmd.eCI))
        (s.ldBytes (storeBase n + wt) (cmd.eCO * cmd.eKH * cmd.eKW * cmd.eCI))).1
      ∃ t, exec (.econv tm) s = .next t ∧ done t ∧ (∀ j, j < out.length → t.ld8 (storeBase n + o + j) = out.getD j 0 % 256) ∧
        ∀ x, (x < storeBase n + o ∨ storeBase n + o + out.length ≤ x) → t.ld8 x = s.ld8 x) ∧
    (cmd.opc = 0x51 → cmd.eboxEmpty = false → checkEboxHead s n (s.core k).storeTop cmd (w 0) (w 1) (w 2) = none →
      let all := (List.range (cmd.bGH * cmd.bGW * cmd.bANCH)).filterMap fun j =>
        s.boxOne cmd (s.boxParam n (bits (w 2) 20 0))
          (s.ldBytes (storeBase n + i) (cmd.bGH * cmd.bGW * cmd.bANCH * (4 + cmd.bCLASSES)))
          (j / cmd.bANCH) (j % cmd.bANCH) (j * (4 + cmd.bCLASSES))
      ∃ t, exec (.ebox tm) s = .next t ∧ done t ∧ list t (min all.length cmd.bMAX) (all.length - cmd.bMAX)) ∧
    (cmd.opc = 0x52 → cmd.nMAXIN ≠ 0 → cmd.bMAX ≠ 0 →
      firstBad [s.refCheck n (s.core k).storeTop (edgeSpaces false) (w 0) (64 + 16 * cmd.nMAXIN),
                s.refCheck n (s.core k).storeTop (edgeSpaces true) (w 1) (64 + 16 * cmd.bMAX)] = none →
      let m := min (s.ldN (storeBase n + i) 4) cmd.nMAXIN
      ∃ t count, exec (.enms tm) s = .next t ∧ done t ∧ count ≤ cmd.bMAX ∧ count ≤ m ∧ list t count (m - count))) ∧
  ∀ (s : State) (tm k i o : Nat) (cmd : Cmd), s.phase = .up → s.fftPresent tm = true → (s.team tm).actF = none →
    pickEntry s (s.team tm).fq [] = some cmd → s.slotOf cmd.core = some k → s.ue = [] → s.teamOn (cmd.core / 8) = true →
    refOf cmd.w1 = some (.loc i) → refOf cmd.w2 = some (.loc o) → cmd.fCOUNT = 1 →
    let a := storeBase cmd.core + o
    let out := fftBytes cmd (s.ldBytes (storeBase cmd.core + i) cmd.fBytes)
    ∃ t, exec (.fftc tm) s = .next t ∧ (∃ x, (t.team tm).actF = some x ∧ x.cmd = cmd) ∧
      (∀ j, j < out.length → t.ld8 (a + j) = out.getD j 0 % 256) ∧ ∀ x, (x < a ∨ a + out.length ≤ x) → t.ld8 x = s.ld8 x

/-- R112, R115: COMMAND_COMPLETE takes the command from its engine and then applies its signal: a local one adds SIGCNT to its
semaphore, a remote one goes on its way to its core. The model's own reading enters in: completions are commands of their
own (log 9). -/
def Obligations.CommandComplete : Prop :=
  (∀ (s : State) (n k : Nat) (a : Active) (rest : List Active), Serves s n k →
    let c := s.core k
    (c.landD = a :: rest → ∃ t, exec (.commandComplete n .dq) s = .next t ∧ (t.core k).landD = rest ∧
      Signalled s t k a.cmd ∧ t.mem = s.mem ∧
      (a.cmd.sig = true → a.cmd.rsig = true → a.cmd.rcore ≠ n → a.cmd.sigcnt ≠ 0 →
        ∃ g, t.sigs = s.sigs ++ [g] ∧ g.src = n ∧ g.dst = a.cmd.rcore ∧ g.sem = a.cmd.sem ∧ g.amount = a.cmd.sigcnt)) ∧
    (c.landM = a :: rest → a.cmd.matrixRuns = false → ∃ t, exec (.commandComplete n .mq) s = .next t ∧
      (t.core k).landM = rest ∧ Signalled s t k a.cmd ∧ t.mem = s.mem) ∧
    (c.actX = some a → ∃ t, exec (.commandComplete n .xq) s = .next t ∧ (t.core k).actX = none ∧
      Signalled s t k a.cmd ∧ t.mem = s.mem) ∧
    (c.actV = some a → a.full = true → ∃ t, exec (.commandComplete n .vq) s = .next t ∧ (t.core k).actV = none ∧
      t.getF (F.VEC_STATUS_RUNNING k) = 0 ∧ Signalled s t k a.cmd ∧ t.mem = s.mem) ∧
    (c.actK = some a → a.full = true → a.cmd.opc = 0x40 → ∃ t, exec (.commandComplete n .kq) s = .next t ∧
      (t.core k).actK = none ∧ Signalled s t k a.cmd ∧ t.mem = s.mem)) ∧
  ∀ (s : State) (tm k : Nat) (a : Active), s.phase = .up → s.slotOf a.cmd.core = some k →
    ((s.team tm).actE = some a → ∃ t, exec (.commandComplete tm .eq) s = .next t ∧ (t.team tm).actE = none ∧
      Signalled s t k a.cmd ∧ t.mem = s.mem) ∧
    ((s.team tm).actF = some a → ∃ t, exec (.commandComplete tm .fq) s = .next t ∧ (t.team tm).actF = none ∧
      Signalled s t k a.cmd ∧ t.mem = s.mem)

/-! ### KV contexts, objects, memory -/

/-- R241, R242: the writes of KVA_CMD, KVA_FREE_PUSH and the KVA configuration from a port that may configure the partition wait
for the snapshot. There ACTIVATE makes a FREE context whose word 0 is in range ACTIVE, RELEASE makes an ACTIVE one RELEASING
with no group open, and a push puts a frame that lies in the arena at the end of its free list. A RELEASING context with
nothing in flight becomes FREE, with no page and no token. The model's own reading enters in: who may configure a partition
(logs 37, 43). -/
def Obligations.KvContexts : Prop :=
  (∀ (s : State) (port : Port) (p x : Nat) (w : W32), s.phase = .up → p < 8 →
    let rows : List (Instr × Ev) := [(.kvActivate port p x, .kvCmd p 1 x), (.kvRelease port p x, .kvCmd p 2 x),
      (.kvaFreePush port p w, .kvPush p (w.toNat / 2 ^ 28) (w.toNat % 2 ^ 28)), (.kvaConfigWrite port p 0x00 w, .kvConfig p 0x00 w),
      (.kvaConfigWrite port p 0x04 w, .kvConfig p 0x04 w), (.kvaConfigWrite port p 0x08 w, .kvConfig p 0x08 w),
      (.kvaConfigWrite port p 0x0C w, .kvConfig p 0x0C w)]
    ∀ e ∈ rows, (s.partPort port p = true → exec e.1 s = .next { s with events := s.events ++ [e.2] }) ∧
      (s.partPort port p = false → exec e.1 s = .next (s.denied port))) ∧
  ∀ (s : State) (k now p x sz frame : Nat), s.phase = .up → s.kvInShare p x = true →
    let c := s.kvRead p x
    let o := s.obj p (s.getF (F.KVA_ARENA_OBJ p))
    (c.state = 0 → c.fieldsOk = true → 0 < c.perPage c.initSz →
      (s.applyEv k now (.kvCmd p 1 x)).kvRead p x = { c with state := 1 }) ∧
    (c.state ≠ 0 → (s.applyEv k now (.kvCmd p 1 x)).kvRead p x = c ∧
      (s.applyEv k now (.kvCmd p 1 x)).getF (F.KVA_STATUS_CMD_REJECT p) = 1) ∧
    (c.state = 1 → ((s.applyEv k now (.kvCmd p 2 x)).kvRead p x).state = 2 ∧
      ((s.applyEv k now (.kvCmd p 2 x)).kvRead p x).pend = false) ∧
    (sz ≤ 8 → frame % 2 ^ sz = 0 → o.stage = 2 → 4096 * (frame + 2 ^ sz) ≤ o.size →
      (s.applyEv k now (.kvPush p sz frame)).kvFrames p sz = s.kvFrames p sz ++ [frame]) ∧
    (c.state = 2 → s.kvInFlight p x = false → ∃ t, exec (.kvReleaseComplete p x) s = .next t ∧
      (t.kvRead p x).state = 0 ∧ (t.kvRead p x).len = 0 ∧ (t.kvRead p x).npages = 0)

/-- R258, R259, R84: a Tally command on a Team that is ON waits for the snapshot with the two argument registers, or is rejected
where 64 wait; one on a Team that is not ON is held and wakes the Team. At the snapshot ARM sets EPOCH and LIMIT and clears
the rest, REWIND sets NEXT, DISARM clears EPOCH; an ARM with EPOCH 0 and a REWIND of a disarmed counter or beyond LIMIT are
rejected; no other counter changes. The model's own reading enters in: what reaches a Team that is not ON is held (log 28). -/
def Obligations.TallyCommands : Prop :=
  (∀ (s : State) (port : Port) (t c : Nat), s.phase = .up → portHost port = true → s.teamPresent t = true → c < 256 →
    let rows : List (Instr × Nat) := [(.arm port t c, 1), (.rewind port t c, 2), (.disarm port t c, 3)]
    ∀ e ∈ rows,
      (s.teamOn t = true → s.tallyQueued t < 64 → ∃ u, exec e.1 s = .next u ∧ u.events = s.events ++
        [.tally t e.2 c (s.getF (F.TALLY_ARG0_EPOCH t)) (s.getF (F.TALLY_ARG1_VALUE t))] ∧ (u.team t).busySeen = true) ∧
      (s.teamOn t = true → 64 ≤ s.tallyQueued t → ∃ u, exec e.1 s = .next u ∧ u.events = s.events ∧
        u.getF (F.TALLY_STATUS_CMD_REJECT t) = 1) ∧
      (s.teamOn t = false → ∃ u, exec e.1 s = .next u ∧ u.events = s.events ∧ (u.team t).heldReq = true ∧
        (u.team t).heldCfg = (s.team t).heldCfg ++ [(0x208, BitVec.ofNat 32 (e.2 * 2 ^ 30 + c))])) ∧
  ∀ (s : State) (k now t c a0 a1 : Nat), s.phase = .up →
    let y := tget tally0 (s.team t).tally c
    let u (op : Nat) : State := s.applyEv k now (.tally t op c a0 a1)
    let z (op : Nat) : TallyCtr := tget tally0 ((u op).team t).tally c
    (a0 ≠ 0 → z 1 = { epoch := a0, limit := a1, next := 0, hwm := 0, bitmap := 0 }) ∧
    (y.epoch ≠ 0 → a1 ≤ y.limit → z 2 = { y with next := a1 }) ∧ z 3 = { y with epoch := 0 } ∧
    (a0 = 0 → z 1 = y ∧ (u 1).getF (F.TALLY_STATUS_CMD_REJECT t) = 1) ∧
    (y.epoch = 0 ∨ y.limit < a1 → z 2 = y ∧ (u 2).getF (F.TALLY_STATUS_CMD_REJECT t) = 1) ∧
    ∀ op d, d ≠ c → tget tally0 ((u op).team t).tally d = tget tally0 (s.team t).tally d

/-- R270 to R273: a STAB_CMD waits for the snapshot with its argument registers, or is rejected where 16 wait; STAB_QUERY keeps
what it names. At the snapshot a LOAD that is refused leaves every object and all of memory, with the reason in STAB_RESULT;
one that is accepted begins to fill every object it names; a FREE of a loaded object makes it FREEING, and CLEAR_LOST clears
LOST. A fill writes zeros over the object's places alone, once the Teams whose slices it reaches are ON; R276: a copy of a
segment that the budget of the tick holds is noted and its bytes are counted. The model's own reading
enters in: the reasons of a refused LOAD, and errors as a list of addresses (logs 29, 31). -/
def Obligations.ObjectCommands : Prop :=
  (∀ (s : State) (port : Port) (p id : Nat), s.phase = .up → portHost port = true → p < 8 → id < 65536 →
    let rows : List (Instr × Nat) := [(.stabLoad port p, 1), (.stabFree port p, 2), (.clearLost port p, 3)]
    (∀ e ∈ rows,
      (s.stabQueued < 16 → exec e.1 s = .next { s with events := s.events ++
        [.stab e.2 p (s.getF F.STAB_CMD_ARG0_FIRST) (s.getF F.STAB_CMD_ARG1_COUNT)] }) ∧
      (16 ≤ s.stabQueued → ∃ t, exec e.1 s = .next t ∧ t.events = s.events ∧ t.getF F.STAB_STATUS_CMD_REJECT = 1)) ∧
    ∃ t, exec (.stabQuery port p id) s = .next t ∧ t.getF F.STAB_QUERY_PART = p ∧ t.getF F.STAB_QUERY_ID = id ∧ t.mem = s.mem) ∧
  (∀ (s : State) (k now p first count : Nat), s.phase = .up → 0 < count →
    let t := s.applyEv k now (.stab 1 p first count)
    (∀ r, r < 256 → s.loadObjs p first count = .error r →
      t.objs = s.objs ∧ t.mem = s.mem ∧ t.getF F.STAB_RESULT_STATE = 3 ∧ t.getF F.STAB_RESULT_REASON = r) ∧
    (∀ u, s.loadObjs p first count = .ok u → t.getF F.STAB_RESULT_STATE = 1 ∧
      ∀ i, i < count → (t.obj p (first + i)).stage = 1 ∧ (t.obj p (first + i)).size = bits (s.objWord p (first + i) 0) 39 0)) ∧
  (∀ (s : State) (k now p id : Nat), s.phase = .up → s.assay.copying = none →
    ((s.obj p id).stage = 2 → ((s.applyEv k now (.stab 2 p id 1)).obj p id).stage = 3) ∧
    ((s.obj p id).lost = true → ((s.applyEv k now (.stab 3 p id 1)).obj p id).lost = false)) ∧
  (∀ (s : State) (p id : Nat), s.phase = .up →
    let x := s.obj p id
    x.stage = 1 → x.filled = false → x.bound = false → (∀ tm ∈ x.poolTeams, s.teamOn tm = true) →
    ∃ t, exec (.loadFillComplete p id) s = .next t ∧ t.obj p id = { x with filled := true } ∧
      (∀ e ∈ x.homes ++ x.poolUse, ∀ a, e.1 ≤ a → a < e.1 + e.2 → t.ld8 a = 0) ∧
      ∀ a, (∀ e ∈ x.homes ++ x.poolUse, a < e.1 ∨ e.1 + e.2 ≤ a) → t.ld8 a = s.ld8 a) ∧
  ∀ (s : State) (p id i a : Nat) (g : Seg), s.phase = .up →
    let x := s.obj p id
    x.segs[i]? = some g → g.move.isSome = true → g.base = some a → g.copied = false → g.renew = false → x.bound = false →
    s.moveHeld g = none → s.getF F.STAB_MIG_USED_BYTES + x.segLen i ≤ s.getF F.STAB_MIG_BUDGET_BYTES →
    (∀ j, j < x.segLen i → s.ueHit (a + j) 1 = false) →
    exec (.migrationCopyComplete p id i) s =
      .next (((s.reachSlices (moveTeam g).toList).addF F.STAB_MIG_USED_BYTES (x.segLen i)).setObj p id
        { x with segs := x.segs.set i { g with copied := true } })

/-- R263 to R267, R459, R460: a retraining that succeeds puts its channel back in service; the first failure leaves it
retraining, a second in succession fails it, and its pair. A burst that fails its CRC is retried and counted, and after the
fourth failure the channel retrains. A scrub counts a corrected bit; more bits make the granule, or the word, uncorrectable.
The model's own reading enters in: the channel state between two failures (log 34). -/
def Obligations.MemoryUpkeep : Prop :=
  (∀ (s : State) (c : Nat), s.phase = .up → c < 16 →
    let st (t : State) (d : Nat) : Nat := t.getF (F.GDDR_CH_STATE_CH_c d)
    let up (f : Fld) (t : State) : Prop := t.getF f = min (s.getF f + 1) (2 ^ 32 - 1)
    (st s c = 1 →
      (∃ t, exec (.gddrRetrain c true) s = .next t ∧ st t c = 0 ∧ up F.GDDR_RETRAIN_COUNT_COUNT t ∧ ∀ d, d < 16 → d ≠ c → st t d = st s d) ∧
      (tget nat0 s.gddrFails c = 0 → ∃ t, exec (.gddrRetrain c false) s = .next t ∧ st t c = 1 ∧ tget nat0 t.gddrFails c = 1 ∧
        t.events = s.events) ∧
      (tget nat0 s.gddrFails c ≠ 0 → ∃ t, exec (.gddrRetrain c false) s = .next t ∧ st t c = 2 ∧ t.getF F.GDDR_STATUS_TRAIN = 4 ∧
        t.events = s.events ++ [.pairFail (c / 2)] ∧ t.mem = s.mem)) ∧
    ∀ nth, 1 ≤ nth → nth ≤ 4 → st s c = 0 → ∃ t, exec (.gddrCrcFail c nth) s = .next t ∧ up F.GDDR_CRC_RETRY_COUNT t ∧
      st t c = (if nth = 4 then 1 else 0) ∧ (∀ d, d < 16 → d ≠ c → st t d = st s d) ∧ t.mem = s.mem) ∧
  (∀ (s : State) (a flips : Nat), s.phase = .up → s.getF F.GDDR_SCRUB_HOURS ≠ 0 → a % 64 = 0 → a < s.gddrTop →
    s.pairOk (gddrPair a) = true → s.ueHit a 64 = false →
    exec (.gddrScrub a 0) s = .next s ∧
    (∃ t, exec (.gddrScrub a 1) s = .next t ∧ t.getF F.GDDR_CE_COUNT = min (s.getF F.GDDR_CE_COUNT + 1) (2 ^ 32 - 1) ∧
      t.ue = s.ue ∧ t.mem = s.mem) ∧
    (2 ≤ flips → ∃ t, exec (.gddrScrub a flips) s = .next t ∧ t.ue = s.ue ++ [(a, 64)] ∧ t.errPlace = s.errPlace ∧
      t.getF F.GDDR_UE_COUNT = min (s.getF F.GDDR_UE_COUNT + 1) (2 ^ 32 - 1) ∧ t.mem = s.mem)) ∧
  ∀ (s : State) (m unit addr flips dom now : Nat), s.phase = .up → m < 10 → unit < 64 →
    exec (.sramScrub m unit addr 0 dom now) s = .next s ∧
    (∃ t, exec (.sramScrub m unit addr 1 dom now) s = .next t ∧ t.ue = s.ue ∧ t.mem = s.mem ∧
      t.getF (F.RAS_ECC_CE_m_COUNT m) = min (s.getF (F.RAS_ECC_CE_m_COUNT m) + 1) (2 ^ 32 - 1)) ∧
    (2 ≤ flips → m = 0 → ∃ t, exec (.sramScrub m unit addr flips dom now) s = .next t ∧
      t.ue = s.ue ++ [(storeBase unit + addr / 8 * 8, 8)] ∧ t.getF (F.RAS_ECC_UE_m_COUNT 0) =
        min (s.getF (F.RAS_ECC_UE_m_COUNT 0) + 1) (2 ^ 32 - 1) ∧ t.getF F.RAS_UE_LOG0_CLASS = 0 ∧ t.getF F.RAS_UE_LOG0_UNIT = unit ∧
      t.getF F.RAS_STATUS_UE_SEEN = 1 ∧ t.mem = s.mem) ∧
    (2 ≤ flips → m = 8 → ∃ t, exec (.sramScrub m unit addr flips dom now) s = .next t ∧ t.phase = .coldReset)

/-! ### Rings and jobs -/

/-- R329 to R340: a tail doorbell within the published range sets SQTAIL, and a head doorbell within the written records sets
CQHEAD; one outside sets DBERR and is counted. A doorbell of a disabled ring, or of a page that is not the function's, is
counted alone. DB_ABORT waits for the snapshot. Taking a descriptor copies its eight words, moves SQHEAD on and reserves two
records; with no room for them the ring stalls; one that cannot be read is taken with its fault. A coalescing timeout signals
the ring's vector. The model's own reading enters in: the MSI-X table, how records count against a CQ, a descriptor that
cannot be read, and doorbells behind an enable that waits, which are latched (logs 36, 40, 42, 98). -/
def Obligations.Doorbells : Prop :=
  (∀ (s : State) (port : Port) (r : Nat) (w : W32), s.phase = .up → r < 16384 → port ≠ .mgmt →
    let tail := s.getF (rSQTAIL r)
    let head := s.getF (rSQHEAD r)
    let ctail := s.getF (rCQTAIL r)
    let ok := decide (cdiff tail head ≤ cdiff w.toNat head ∧ cdiff w.toNat head ≤ s.rSQ r)
    let okc := decide (cdiff ctail w.toNat ≤ cdiff ctail (s.getF (rCQHEAD r)))
    let all : List Instr := [.dbSqTail port r w, .dbCqHead port r w, .dbAbort port r w]
    let counted (c : Instr) (f : Fld) : Prop := ∃ t, exec c s = .next t ∧ t.getF f = min (s.getF f + 1) (2 ^ 32 - 1) ∧
      t.getF (rSQTAIL r) = tail ∧ t.getF (rCQHEAD r) = s.getF (rCQHEAD r) ∧ t.events = s.events ∧ t.mem = s.mem
    (s.dbPage port r = false → ∀ c ∈ all, counted c F.RAS_UNPOP_WR_COUNT) ∧
    (s.dbPage port r = true → s.rEN r = 0 → s.enabling r = false → ∀ c ∈ all, counted c F.HQE_DB_IGNORED_COUNT) ∧
    (s.dbPage port r = true → s.rEN r = 0 → s.enabling r = true → ∀ c ∈ all, ∃ t e, exec c s = .next t ∧
      t = { s with rings := t.rings } ∧ t.ring r = { s.ring r with early := (s.ring r).early ++ [e] } ∧ e.2 = w) ∧
    (s.dbPage port r = true → s.rEN r ≠ 0 →
      (ok = true → ∃ t, exec (.dbSqTail port r w) s = .next t ∧ t.getF (rSQTAIL r) = w.toNat ∧
        (∀ o, o ≠ (rSQTAIL r).off → t.rd o = s.rd o) ∧ t = { s with regs := t.regs }) ∧
      (ok = false → counted (.dbSqTail port r w) F.HQE_DB_IGNORED_COUNT ∧
        ∀ t, exec (.dbSqTail port r w) s = .next t → t.getF (rDBERR r) = 1) ∧
      (okc = true → (s.ring r).dropped = [] → ∃ t, exec (.dbCqHead port r w) s = .next t ∧ t.getF (rCQHEAD r) = w.toNat ∧
        (∀ o, o ≠ (rCQHEAD r).off → o ≠ (rSTALL r).off → t.rd o = s.rd o) ∧ t = { s with regs := t.regs } ∧
        (∀ f ∈ [rPENDING r, rABORTING r, rDBERR r], t.getF f = s.getF f) ∧
        (t.cqRoomFor r 2 = true → t.getF (rSTALL r) = 0) ∧ (t.cqRoomFor r 2 = false → t.getF (rSTALL r) = s.getF (rSTALL r))) ∧
      (okc = false → counted (.dbCqHead port r w) F.HQE_DB_IGNORED_COUNT) ∧
      exec (.dbAbort port r w) s = .next (if w.toNat % 2 = 1 then s.latch (.ringAbort r 0x22) else s))) ∧
  (∀ (s : State) (r : Nat), s.phase = .up → r < 16384 → s.rEN r ≠ 0 →
    let h := s.getF (rSQHEAD r)
    let a := s.rSQBASE r + 64 * (h % s.rSQ r)
    h ≠ s.getF (rSQTAIL r) →
    (s.cqRoomFor r 2 = false → ∃ t, exec (.descriptorTake r) s = .next t ∧ t.getF (rSTALL r) = 1 ∧ t.getF (rSQHEAD r) = h ∧
      t.rings = s.rings ∧ t.mem = s.mem) ∧
    (s.cqRoomFor r 2 = true → s.descHeld < 16384 → ∃ t d, exec (.descriptorTake r) s = .next t ∧
      t.getF (rSQHEAD r) = (h + 1) % 2 ^ 32 ∧ t.getF (rSTALL r) = 0 ∧ t.mem = s.mem ∧
      t.ring r = { s.ring r with taken := (s.ring r).taken ++ [d], resv := (s.ring r).resv + 2 } ∧ d.seq = h ∧
      (s.memBad a 64 = none → d.fault = none ∧
        d.words.length = 8 ∧ (∀ i, i < 8 → (d.words.getD i 0#64).toNat = s.ldN (a + 8 * i) 8) ∧
        d.refusal = s.decodeCheck (s.rPART r) d.words (descResv d.words) false) ∧
      (s.memBad a 64 ≠ none → d.fault = s.memBad a 64))) ∧
  ∀ (s : State) (r : Nat), s.phase = .up → r < 16384 → (s.ring r).unsent ≠ 0 → s.getF (ringF r 0 16 16) ≠ 0 →
    ∃ t, exec (.coalesceTimeout r) s = .next t ∧ t.ring r = { s.ring r with unsent := 0 } ∧ t.mem = s.mem ∧
      ((tget msix0 s.msix (128 * s.rOWNER r + 4 * s.rVEC r + 3)).toNat % 2 = 0 → t.irqs = s.irqs ++ [(s.rOWNER r, s.rVEC r)]) ∧
      ((tget msix0 s.msix (128 * s.rOWNER r + 4 * s.rVEC r + 3)).toNat % 2 = 1 → t.irqs = s.irqs ∧
        (tget msix0 t.msix (0x10000 + s.rOWNER r)).getLsbD (s.rVEC r) = true)

/-- R329, R330, R338: a write that sets EN waits for the snapshot, where a good entry is enabled with its four counts at 0, and
a bad one sets WRITE_REJECT and stays disabled. A write that clears EN takes effect at once, and clears CQ_STALL, or is
rejected while the ring has work. A port that does not own the ring is denied. The FLR of a VF latches an abort, with FENCE, of each of its rings.
The model's own reading enters in: the FLR of a VF and the denied ports (logs 38, 39). -/
def Obligations.RingEntries : Prop :=
  (∀ (s : State) (port : Port) (r : Nat) (w : W32), s.phase = .up → r < 16384 →
    (s.ringPort port r = false → exec (.ringEnable port r w) s = .next (s.denied port) ∧
      exec (.ringDisable port r w) s = .next (s.denied port)) ∧
    (s.ringPort port r = true →
      (s.rEN r = 0 → exec (.ringEnable port r w) s = .next (s.latch (.ringEnable r (s.ringWord port r (w ||| 0x80000000#32)))) ∧
        ∃ t, exec (.ringDisable port r w) s = .next t ∧ t.rEN r = 0) ∧
      (s.rEN r = 1 →
        (s.getF (rPENDING r) ≠ 0 → ∃ t, exec (.ringDisable port r w) s = .next t ∧ t.rEN r = 1 ∧
          t.getF F.HQE_STATUS_WRITE_REJECT = 1) ∧
        (s.getF (rPENDING r) = 0 → s.getF (rABORTING r) = 0 →
          w ||| 0x80000000#32 = s.rd (0x100000 + 64 * r + 4) →
          ∃ t, exec (.ringDisable port r w) s = .next t ∧ t.rEN r = 0 ∧ t = { s with regs := t.regs } ∧ t.getF (rSTALL r) = 0 ∧
            (∀ f ∈ [rPENDING r, rABORTING r, rDBERR r], t.getF f = s.getF f) ∧
            ∀ o, o ≠ 0x100000 + 64 * r + 4 → o ≠ (rSTALL r).off → t.rd o = s.rd o)))) ∧
  (∀ (s : State) (k now r : Nat) (w : W32), s.phase = .up → r < 16384 → s.rEN r = 0 → w.getLsbD 31 = true →
    let t := s.applyEv k now (.ringEnable r w)
    (s.entryOk r w = true → (s.ring r).early = [] → t.rEN r = 1 ∧ t.ring r = {} ∧ ∀ f ∈ [rSQHEAD r, rSQTAIL r, rCQHEAD r, rCQTAIL r], t.getF f = 0) ∧
    (s.entryOk r w = false → t.rEN r = 0 ∧ t.getF F.HQE_STATUS_WRITE_REJECT = 1)) ∧
  ∀ (s : State) (v : Nat), s.phase = .up → 0 < v → v < 64 →
    ∃ t, exec (.vfFlr v) s = .next t ∧ t.mem = s.mem ∧ t.regs = s.regs ∧
      (∀ r, r < 16384 → s.rEN r = 1 → s.rOWNER r = v → .ringAbort r rFence ∈ t.events) ∧
      (∀ e ∈ t.events, e ∈ s.events ∨ ∃ r, e = .ringAbort r rFence ∧ s.rEN r = 1 ∧ s.rOWNER r = v) ∧
      tget tdi0 t.tdis v = if tget tdi0 s.tdis v = 0 then 0 else 3

/-- R94 to R98, R343: a program load waits for the snapshot, or is rejected while one is in progress; there it is refused with
its reason, changing no core and no memory, or begins. Its completion measures it. A job that starts on a core gives it S1
to S4, its entry, its epoch, cleared fault records and its argument block; where the block cannot be read, the part faults
with that reason. A part that ends adds its cycles to the job, and the last part ends the job. The model's own reading
enters in: when a program load writes, and an argument block that cannot be read (logs 25, 40). -/
def Obligations.Jobs : Prop :=
  (∀ (s : State) (port : Port) (p : Nat), s.phase = .up → portHost port = true → p < 8 →
    (s.getF F.DISP_PLOAD_STATUS_STATE = 1 → ∃ t, exec (.programLoad port p) s = .next t ∧ t.events = s.events ∧
      t.getF F.DISP_PLOAD_STATUS_WRITE_REJECT = 1) ∧
    (s.getF F.DISP_PLOAD_STATUS_STATE ≠ 1 →
      exec (.programLoad port p) s = .next (s.latch (.pload p)))) ∧
  (∀ (s : State) (k now p : Nat), s.phase = .up → p < 8 →
    let a := s.getF F.DISP_PLOAD_ADDR_HI_ADDR * 2 ^ 32 + s.getF F.DISP_PLOAD_ADDR_LO_ADDR * 64
    let t := s.applyEv k now (.pload p)
    (s.getF F.DISP_PLOAD_STATUS_STATE = 1 → t.cores = s.cores ∧ t.mem = s.mem ∧ t.getF F.DISP_PLOAD_STATUS_WRITE_REJECT = 1 ∧
      t.getF F.DISP_PLOAD_STATUS_STATE = 1) ∧
    (s.getF F.DISP_PLOAD_STATUS_STATE ≠ 1 → ∀ r, r < 256 → s.ploadCheck p a = some r → t.cores = s.cores ∧ t.mem = s.mem ∧ t.getF F.DISP_PLOAD_STATUS_STATE = 3 ∧
      t.getF F.DISP_PLOAD_STATUS_REASON = r) ∧
    (s.getF F.DISP_PLOAD_STATUS_STATE ≠ 1 → s.ploadCheck p a = none → t.getF F.DISP_PLOAD_STATUS_STATE = 1 ∧ t.getF F.DISP_PLOAD_STATUS_PART = p ∧
      (t.part p).loading = true ∧ (t.part p).nInst = s.ldN (a + 8) 4)) ∧
  (∀ s : State, s.phase = .up → s.getF F.DISP_PLOAD_STATUS_STATE = 1 →
    let p := s.getF F.DISP_PLOAD_STATUS_PART
    let d := Config.shake256 64 (s.programBytes p)
    ∃ t, exec .programLoadComplete s = .next t ∧ t.getF F.DISP_PLOAD_STATUS_STATE = 2 ∧ t.mem = s.mem ∧ t.cores = s.cores ∧
      t.part p = { s.part p with loading := false, progCurrent := d, progLoads := (s.part p).progLoads + 1,
                                 progChain := Config.shake256 64 (leBytes 64 (s.part p).progChain ++ leBytes 64 d) }) ∧
  (∀ (s : State) (n k i : Nat) (rest : List Nat), Serves s n k →
    let c := s.core k
    let j := s.job i
    c.jobQ = i :: rest → c.run = false → c.job = none → s.coreQuiet k n = true → s.teamOn (n / 8) = true → j.pen = false →
    (∀ r x, s.memBad j.argAddr 256 = some (r, x) → ∃ t, exec (.jobStart n) s = .next t ∧ (t.core k).run = false ∧
      (t.core k).faulted = true ∧ (t.core k).fault.reason = r ∧ (t.core k).job = some i ∧ t.mem = s.mem) ∧
    (s.memBad j.argAddr 256 = none → ∃ t, exec (.jobStart n) s = .next t ∧ (t.core k).run = true ∧ (t.core k).pc = j.entry ∧ (t.core k).job = some i ∧
      (t.core k).jobQ = rest ∧ (t.core k).fault = {} ∧ (t.core k).epoch = j.epoch ∧ (t.core k).storeTop = c.staticSize ∧
      (t.core k).sems = c.sems ∧ (t.core k).queues = c.queues ∧ (t.job i).started = true ∧
      (t.core k).S 1 = BitVec.ofNat 64 c.argOff ∧ (t.core k).S 2 = BitVec.ofNat 64 j.epoch ∧
      (t.core k).S 3 = BitVec.ofNat 64 s.tick ∧ (t.core k).S 4 = BitVec.ofNat 64 n ∧ (∀ x, 5 ≤ x → (t.core k).S x = 0#64) ∧
      (j.strm = false → ∀ x, x < 256 → t.ld8 (storeBase n + c.argOff + x) = s.ld8 (j.argAddr + x)) ∧
      ∀ x, (x < storeBase n + c.argOff ∨ storeBase n + c.argOff + 256 ≤ x) → t.ld8 x = s.ld8 x)) ∧
  ∀ (s : State) (n k i cycles : Nat), Serves s n k →
    let c := s.core k
    let j := s.job i
    c.job = some i → c.run = false → s.coreQuiet k n = true → c.outstanding = 0 → c.faulted = false → j.ring < 16384 →
    (j.ended.length + 1 < j.cores.length → ∃ t, exec (.jobCoreComplete n cycles) s = .next t ∧ (t.core k).job = none ∧
      (t.job i).cycles = j.cycles + c.jobSpent + cycles ∧ (t.job i).ended.length = j.ended.length + 1 ∧ t.mem = s.mem) ∧
    (j.cores.length ≤ j.ended.length + 1 → ∃ t, exec (.jobCoreComplete n cycles) s = .next t ∧ (t.core k).job = none ∧
      t.job i = {} ∧ t.getF (rCQTAIL j.ring) = (s.getF (rCQTAIL j.ring) + 1) % 2 ^ 32)

/-- R82 to R85: gating that completes gates the Team, or wakes it at once where a request waits, and loses nothing of its cores
but the scalar registers and the PC; a request that reaches a gated Team is held and wakes it, counted; the Team that is
awake is ON, and the write it held is carried out. The model's own
reading enters in: what reaches a Team that is not ON is held and applied at its wake (log 28). -/
def Obligations.TeamPower : Prop :=
  ∀ (s : State) (t : Nat), s.phase = .up → s.teamPresent t = true →
    let st (u : State) : Nat := u.getF (F.TEAM_PWR_STATUS_STATE t)
    let counted (u : State) : Prop := u.getF (F.TEAM_WAKE_COUNT_COUNT t) = min (s.getF (F.TEAM_WAKE_COUNT_COUNT t) + 1) (2 ^ 32 - 1)
    let kept (u : State) : Prop := u.mem = s.mem ∧ (∀ k, k / 9 ≠ t → u.core k = s.core k) ∧
      ∀ k, k / 9 = t → u.core k = { s.core k with sregs := (u.core k).sregs, pc := (u.core k).pc }
    (st s = 3 → (s.team t).heldReq = false → ∃ u, exec (.gatingComplete t) s = .next u ∧ st u = 1 ∧ kept u) ∧
    (st s = 3 → (s.team t).heldReq = true → ∃ u, exec (.gatingComplete t) s = .next u ∧ st u = 2 ∧ counted u ∧ kept u) ∧
    (st s = 1 → ∃ u, exec (.teamWake t) s = .next u ∧ st u = 2 ∧ counted u ∧ (u.team t).heldReq = true ∧ u.cores = s.cores) ∧
    (st s = 3 → ∃ u, exec (.teamWake t) s = .next u ∧ st u = 3 ∧ (u.team t).heldReq = true) ∧
    (st s = 2 → s.jtag.waits = none → (s.team t).heldCfg = [] → ∃ u, exec (.teamWakeComplete t) s = .next u ∧ st u = 0 ∧ (u.team t).heldReq = false ∧
      u.cores = s.cores ∧ u.mem = s.mem) ∧
    (st s = 2 → s.jtag.waits = none → ∀ c a0, (s.team t).heldCfg = [(0x208, BitVec.ofNat 32 (1 * 2 ^ 30 + c))] → c < 256 → s.tallyQueued t < 64 →
      s.getF (F.TALLY_ARG0_EPOCH t) = a0 → ∃ u, exec (.teamWakeComplete t) s = .next u ∧ st u = 0 ∧
        u.events = s.events ++ [.tally t 1 c a0 (s.getF (F.TALLY_ARG1_VALUE t))] ∧ (u.team t).heldCfg = [])

/-! ### Power, heat and time -/

/-- R435, R437, R438, R440 to R445: a gait written waits for the snapshot, by its class, where COOL_B gates the fourth; a power
sample joins the last 100, and above PL_FAST caps the frequency 25 MHz below the running one; the sustained limit is
revised; an alert, a telemetry timeout or a rail warning caps the frequency at 600 MHz, and 10 ms without one lifts the cap;
the scheduled frequency rises once the voltage has. No byte of memory changes. The model's own reading enters in: how
reasons and means are counted, and where the limits start (logs 48, 49). -/
def Obligations.PowerControl : Prop :=
  (∀ (s : State) (port : Port) (w : W32), s.phase = .up →
    exec (.reinGaitWrite port w) s = .next (match port with
      | .vf _ => s.denied port
      | .mgmt => s.latch (.mgmtWrite 0x20000 w)
      | _ => s.latch (.cfgWrite 0x20000 w)) ∧
    ∀ k now, let t := s.applyEv k now (.cfgWrite 0x20000 w)
      (w.toNat % 4 ≠ 3 ∨ s.getF F.REIN_CAP_COOL_B = 1 → t.getF F.REIN_GAIT_GAIT = w.toNat % 4) ∧
      (w.toNat % 4 = 3 → s.getF F.REIN_CAP_COOL_B = 0 →
        t.getF F.REIN_GAIT_GAIT = s.getF F.REIN_GAIT_GAIT ∧ t.getF F.REIN_STATUS_GAIT_REJECT = 1)) ∧
  ∀ (s : State) (now p : Nat) (telem warn : Bool), s.phase = .up →
    let samples := (p :: s.rein.samples).take 100
    (∃ t, exec (.reinSample now p telem warn) s = .next t ∧ t.rein.samples = samples ∧ t.mem = s.mem ∧ t.events = s.events ∧
      t.getF F.REIN_STATUS_TELEM_FAIL = (if telem then 1 else 0) ∧
      (s.rein.fFast = none → s.plFast * samples.length < sumNat samples → t.rein.fFast = some (max 400 (s.runF - 25))) ∧
      (warn = true → ∃ f, t.rein.fSupply = some f ∧ f ≤ 600)) ∧
    (s.pace.ticking = false → s.mayRevise now = true → ∃ t, exec (.fSustRevision now) s = .next t ∧
      t.rein.lastRev = some now ∧ t.rein.fSust = s.sustNext ∧ t.mem = s.mem) ∧
    (∀ c ∈ [Instr.vrAlert now, .avsTimeout now, .railWarning now], ∃ t, exec c s = .next t ∧
      t.rein.fSupply = some (min 600 s.runF) ∧ t.rein.supplyAt = max now s.rein.supplyAt ∧ t.runF ≤ 600 ∧
      t.getF F.REIN_FREQ_RUN = t.runF ∧ t.mem = s.mem ∧ t.events = s.events) ∧
    (s.rein.fSupply ≠ none → s.rein.supplyAt + 10000000 ≤ now → ∃ t, exec (.fSupplyRemoved now) s = .next t ∧
      t.rein.fSupply = none ∧ t.rein.fSust = s.rein.fSust ∧ t.rein.fFast = s.rein.fFast ∧ t.mem = s.mem) ∧
    (s.rein.ramp = true → ∃ t, exec (.voltageRampDone now) s = .next t ∧ t.rein.sched = s.schedF ∧ t.rein.ramp = false ∧
      t.mem = s.mem)

/-- R446 to R453: the voltage target is the critical voltage with its margins, rounded up to 5 mV and at least 0.65 V; above
0.90 V the supply is in trouble. A detector of a powered domain that fires is counted and stretches its clock until the
stretch ends, which adds the cycles lost. With ADAPT 0 every threshold is THR_INIT. A thermal sample notes each sensor as
valid or not; a sensor at 115 degrees in two samples in a row trips the device. The model's own reading enters in: the order
of ties and the cycles of a stretch, an operand (logs 49, 50). -/
def Obligations.DroopAndHeat : Prop :=
  (∀ (s : State) (now vcrit meas : Nat), s.phase = .up →
    let v := max 650 ((vcrit + s.thMax + gaitMargin s.gait + 4) / 5 * 5)
    ∃ t, exec (.avsUpdate now vcrit meas) s = .next t ∧ t.getF F.REIN_VCORE_TARGET_MV = min 65535 v ∧
      t.getF F.REIN_VCORE_MEAS_MV = min 65535 meas ∧ (v ≤ 900 → t.rein = s.rein) ∧
      (900 < v → t.rein.fSupply = some (min 600 s.runF)) ∧ t.mem = s.mem) ∧
  (∀ (s : State) (d now lost : Nat), s.phase = .up → d < 96 →
    (s.detThere d = true → s.detOn d = true → ∃ t, exec (.droopDetect d now) s = .next t ∧ d ∈ t.rein.stretch ∧
      (∀ e, e ≠ d → (e ∈ t.rein.stretch ↔ e ∈ s.rein.stretch)) ∧ tget nat0 t.rein.fires d = tget nat0 s.rein.fires d + 1 ∧ t.mem = s.mem) ∧
    (d ∈ s.rein.stretch → ∃ t, exec (.stretchEnd d lost now) s = .next t ∧ d ∉ t.rein.stretch ∧
      (∀ e, e ≠ d → (e ∈ t.rein.stretch ↔ e ∈ s.rein.stretch)) ∧
      tget nat0 t.rein.lost (detDomain d) = min (tget nat0 s.rein.lost (detDomain d) + lost) (2 ^ 32 - 1) ∧ t.mem = s.mem)) ∧
  (∀ s : State, s.phase = .up → ∃ t, exec .curbAdapt s = .next t ∧ t.rein.fires = [] ∧ t.mem = s.mem ∧
    (s.getF F.CURB_CTRL_ADAPT = 0 → ∀ d, d < 96 → s.detThere d = true → t.getF (F.CURB_DET_THR d) = s.getF F.CURB_CTRL_THR_INIT) ∧
    (s.getF F.CURB_CTRL_ADAPT = 1 → ∀ d, d < 96 →
      (s.detOn d = true → s.getF F.CURB_CTRL_RATE_HI < tget nat0 s.rein.fires d →
        t.getF (F.CURB_DET_THR d) = min 60 (s.getF (F.CURB_DET_THR d) + 2)) ∧
      (s.detOn d = false → t.getF (F.CURB_DET_THR d) = s.getF (F.CURB_DET_THR d)))) ∧
  ∀ (s : State) (now : Nat) (temps : List Int), s.phase = .up → temps.length = 32 →
    (∀ i x, temps[i]? = some x → goodTemp x = true → s.sensorAbsent i = false → 460 ≤ x → i ∈ s.rein.tripped →
      ∃ t, exec (.thermalSample now temps) s = .next t ∧ t.phase = .tripped ∧ t.getF F.THERM_TRIP_REC_VALID = 1) ∧
    ((∀ i x, temps[i]? = some x → x < 460 ∨ i ∉ s.rein.tripped) → ∃ t, exec (.thermalSample now temps) s = .next t ∧
      t.phase = .up ∧ t.mem = s.mem ∧
      (∀ i x, temps[i]? = some x → s.sensorAbsent i = false →
        t.getF (F.THERM_SENSOR_VALID i) = (if goodTemp x then 1 else 0) ∧ t.getF (F.THERM_SENSOR_TEMP i) = intCode 12 x) ∧
      ∀ i x, temps[i]? = some x → (i ∈ t.rein.tripped ↔ (goodTemp x = true ∧ s.sensorAbsent i = false ∧ 460 ≤ x)))

/-- R34, R35, R56, R57: the host sets TP_US within 1,000 to 100,000 while no job locks it; a write of 1 to ENABLE starts
ticking, or cancels a pending stop; a write of 0 stops it at once before the first edge and else at the next, and is
rejected in a job. A write that is turned away sets WRITE_REJECT and changes neither field. The model's own reading enters
in: a stop before the first edge acts at once, and fields out of range (logs 61, 62). -/
def Obligations.PaceControl : Prop :=
  (∀ (s : State) (port : Port) (w : W32), s.phase = .up → portHost port = true →
    let v := w.toNat % 2 ^ 17
    (1000 ≤ v → v ≤ 100000 → s.inJob = false → ∃ t, exec (.pacePeriodWrite port w) s = .next t ∧ t.getF F.PACE_PERIOD_TP_US = v ∧
      t.pace = s.pace ∧ ∀ o, o ≠ 0x10004 → t.rd o = s.rd o) ∧
    (v < 1000 ∨ 100000 < v ∨ (s.inJob = true ∧ v ≠ s.getF F.PACE_PERIOD_TP_US) → ∃ t, exec (.pacePeriodWrite port w) s = .next t ∧
      t.getF F.PACE_PERIOD_TP_US = s.getF F.PACE_PERIOD_TP_US ∧ t.getF F.PACE_STATUS_WRITE_REJECT = 1)) ∧
  (∀ (s : State) (port : Port) (now : Nat) (w x : W32), s.phase = .up → portHost port = true →
    (s.ctrlWord (withField w 0 1 1) = some x →
      (s.pace.ticking = false → s.pace.waiting = false → s.pace.stopping = false →
        ∃ t, exec (.paceEnable port now w) s = .next t ∧ t.getF F.PACE_CTRL_ENABLE = 1 ∧ t.pace.waiting = true ∧
          t.pace.edge = now ∧ t.pace.tp = s.getF F.PACE_PERIOD_TP_US ∧ t.mem = s.mem) ∧
      (s.pace.stopping = true → ∃ t, exec (.paceEnable port now w) s = .next t ∧ t.getF F.PACE_CTRL_ENABLE = 1 ∧
        t.pace = { s.pace with stopping := false, ready := t.pace.ready, lostAt := t.pace.lostAt, held := t.pace.held,
                               slew := t.pace.slew })) ∧
    (s.ctrlWord (withField w 0 1 0) = some x → s.getF F.PACE_CTRL_ENABLE = 1 →
      ∃ t, exec (.paceDisable port now w) s = .next t ∧ t.getF F.PACE_CTRL_ENABLE = 0 ∧
        (s.pace.ticking = true → t.pace = { s.pace with stopping := true, ready := t.pace.ready, lostAt := t.pace.lostAt,
                                                        held := t.pace.held, slew := t.pace.slew }) ∧
        (s.pace.ticking = false → t.pace = { s.pace with waiting := false, ready := none, lostAt := t.pace.lostAt,
                                                         held := t.pace.held, slew := t.pace.slew })) ∧
    (s.inJob = true → s.getF F.PACE_CTRL_ENABLE = 1 → ∃ t, exec (.paceDisable port now w) s = .next t ∧
      t.getF F.PACE_CTRL_ENABLE = 1 ∧ t.getF F.PACE_STATUS_WRITE_REJECT = 1 ∧ t.pace = s.pace)) ∧
  ∀ (s : State) (port : Port) (now : Nat) (w : W32), s.phase = .up → portHost port = false →
    ∀ c ∈ [Instr.pacePeriodWrite port w, .paceEnable port now w, .paceDisable port now w], exec c s = .next (s.denied port)

/-- R49 to R54, R58: sixteen Sync messages in a row within 250 ns lock a port, one beyond clears the count; the active port's
offset corrects the ticks, or beyond 20 microseconds asks for a step and holds. A lock that is lost clears the port's state;
a holdover that has lasted HOLD_MS is reported, once. A PACE_IN edge within 2 microseconds corrects the ticks; the third that is
missing or farther off in a row is reported. A timer whose deadline has come is disarmed and fires at the snapshot. The
model's own reading enters in: when a lock or a holdover ends (log 61). -/
def Obligations.PaceInputs : Prop :=
  (∀ (s : State) (f now : Nat) (x : Int), s.phase = .up → s.portPresent f = true → s.getF (F.FAB_PORT_STATE f) = 2 →
    let q := s.ptp f
    (∃ t, exec (.ptpSync f now x) s = .next t ∧ (t.ptp f).offset = x ∧ t.mem = s.mem ∧
      (x.natAbs ≤ 250 → (t.ptp f).good = min 16 (q.good + 1)) ∧ (250 < x.natAbs → (t.ptp f).good = 0) ∧
      (x.natAbs ≤ 250 → 15 ≤ q.good → (t.ptp f).locked = true) ∧
      (f = 0 → q.locked = true → s.getF F.PACE_CTRL_PTP_PORT ≠ 2 → s.pace.ticking = true → s.getF F.PACE_CTRL_SOURCE = 1 →
        s.pace.stepHold = false →
        (x.natAbs ≤ 20000 → t.pace.slew = x) ∧
        (20000 < x.natAbs → t.pace.slew = 0 ∧ t.pace.stepHold = true ∧ t.getF F.PACE_STATUS_STEP_REQUIRED = 1))) ∧
    (q.locked = true → ∃ t, exec (.ptpLockLost f now) s = .next t ∧ (t.ptp f).locked = false ∧ (t.ptp f).good = 0 ∧
      ∀ g, g ≠ f → t.ptp g = s.ptp g)) ∧
  (∀ (s : State) (now lost : Nat), s.phase = .up → s.pace.lostAt = some lost → s.pace.held = false → s.getF F.PACE_CTRL_SOURCE = 1 →
    s.pace.ticking = true → s.activePtp = none → lost + 1000000 * s.getF F.PACE_HOLDOVER_HOLD_MS ≤ now →
    ∃ t, exec (.ptpLost now) s = .next t ∧ t.getF F.PACE_STATUS_PTP_LOST = 1 ∧ t.events = s.events ++ [.ptpLost] ∧
      t.pace = { s.pace with held := true }) ∧
  (∀ (s : State) (now : Nat) (d : Int), s.phase = .up → s.getF F.PACE_CTRL_SOURCE = 2 →
    let x : Int := (s.getF F.PACE_IN_DELAY_DELAY_NS : Int) - d
    let missed (c : Instr) : Prop := ∃ t, exec c s = .next t ∧ t.pace.misses = s.pace.misses + 1 ∧
      (s.pace.misses = 2 → t.pace.slew = 0 ∧ t.getF F.PACE_STATUS_PACE_IN_LOST = 1)
    (s.pace.ticking = true →
      (x.natAbs ≤ 2000 → ∃ t, exec (.paceInEdge now d) s = .next t ∧ t.pace = { s.pace with misses := 0, slew := x }) ∧
      (2000 < x.natAbs → missed (.paceInEdge now d)) ∧ missed .paceInEdgeMissing) ∧
    (s.pace.ticking = false → s.pace.waiting = true → s.pace.accepted = none → ∃ t, exec (.paceInEdge now d) s = .next t ∧
      t.pace.accepted = some (now - s.getF F.PACE_IN_DELAY_DELAY_NS))) ∧
  ∀ (s : State) (n now k at' : Nat), s.phase = .up → n < 16 → s.getF (F.PACE_TMR_CTRL_ARM n) = 1 →
    s.getF (F.PACE_TMR_DL_HI_DL n) * 2 ^ 32 + s.getF (F.PACE_TMR_DL_LO_DL n) ≤ now →
    ∃ t, exec (.paceTimerExpire n now) s = .next t ∧ t.getF (F.PACE_TMR_CTRL_ARM n) = 0 ∧ t.events = s.events ++ [.timer n] ∧
      (t.applyEv k at' (.timer n)).getF (F.PACE_TMR_CTRL_FIRED n) = 1

/-- R36, R37, R39, R47, R56, R57: with the LOCAL source an edge falls one period after the last and nowhere else; the first
follows ENABLE by a period, with number 0 or the one after the last used; a stop takes effect at an edge that takes no
snapshot. The tick counts in 64 bits. The snapshot takes each class in ascending order of source, every event once, the
frames of one context oldest first and fabric messages by SEQ modulo 2^32 (R362); and a core's budget is the tick's less
what it carries and its excess. The model's own reading enters in: where the first edge
falls, and what a stopping edge does (logs 63, 65, 66). -/
def Obligations.TickEdge : Prop :=
  (∀ (s : State) (now : Nat) (spent busy : List (Nat × Nat)), s.phase = .up → s.getF F.PACE_CTRL_SOURCE = 0 →
    let due := s.pace.edge + 1000 * s.pace.tp
    (s.pace.ticking = true ∨ s.pace.waiting = true → now ≠ due → exec (.tickEdge now spent busy) s = .refused .cannotOccur) ∧
    (s.pace.ticking = true → s.pace.stopping = false → now = due →
      exec (.tickEdge now spent busy) s = .next (s.edgeAt (s.tick + 1) now 0 true spent busy)) ∧
    (s.pace.ticking = true → s.pace.stopping = true → now = due → ∃ t, exec (.tickEdge now spent busy) s = .next t ∧
      t.pace.ticking = false ∧ t.pace.stopping = false ∧ t.events = s.events ∧ t.cores = s.cores ∧ t.mem = s.mem ∧ t.tick = s.tick) ∧
    (s.pace.ticking = false → s.pace.waiting = true → now = due →
      exec (.tickEdge now spent busy) s = .next (s.edgeAt (match s.pace.used with
        | some n => n + 1
        | none => 0) now 0 false spent busy))) ∧
  (∀ (s : State) (k : Nat), k < 2 ^ 64 → (s.setTick k).tick = k) ∧
  (∀ (s : State) (c : Nat) (l : List Ev),
    (∀ e, (s.ofClass c l).count e = if (s.evPlace e).1 = c then l.count e else 0) ∧
    (s.ofClass c l).Pairwise (fun a b => s.evKey (seqBase l) a ≤ s.evKey (seqBase l) b) ∧
    (∀ e, 2 ≤ (s.evPlace e).1 ∧ (s.evPlace e).1 ≤ 8) ∧
    (∀ e base, (s.evPlace e).1 ≠ 6 → (s.evPlace e).1 ≠ 7 → s.evKey base e = (s.evPlace e).2) ∧
    (∀ n m a b fb fb' x x' y y' z z' base, s.evKey base (.frameReady n a fb x y z) ≤ s.evKey base (.frameReady m b fb' x' y' z') ↔
      n < m ∨ (n = m ∧ cdiff (s.cx n 12 63 32) b ≤ cdiff (s.cx n 12 63 32) a)) ∧
    ∀ base i j p q u v a b w x, i < 2 ^ 31 → j < 2 ^ 31 → i < j →
      s.evKey base (.fabMsg ((base + i) % 2 ^ 32) p u a w) < s.evKey base (.fabMsg ((base + j) % 2 ^ 32) q v b x)) ∧
  ∀ (s : State) (n k : Nat), n < 64 → s.slotOf n = some k → (∀ m, m < n → s.slotOf m ≠ some k) →
    let b := s.pace.tp * s.runF * 49 / 50
    tget int0 s.budgets.budget n = (b : Int) - s.carryCost (s.core k) b - (s.core k).excess

/-! ### Resets, start and the host cores -/

/-- R385, R386, R405, R453 to R455, R458: RESET_N and PERST_N put the device into cold reset with memory and cores as after
reset, and leave the fuses and the flash; PERST_N leaves the registers of the AON domain. A rail fault does as RESET_N, but
in deep sleep and after a trip. The loss of VDD_AON leaves the board's contents alone. REIN_SLEEP is taken from a power port
while the ticks are stopped; WAKE_N and the wake timer end deep sleep. The model's own reading enters in: what reads zero
after a reset, and the pins (logs 1, 2, 51, 78). -/
def Obligations.ResetsAndSleep : Prop :=
  (∀ s : State,
    let cleared (t : State) : Prop := t.phase = .coldReset ∧ t.mem = [] ∧ t.cores = [] ∧ t.teams = [] ∧ t.jobs = [] ∧ t.objs = [] ∧
      t.fuses = s.fuses ∧ t.flash = s.flash ∧ t.aon.wake = none
    (∃ t, exec .coldReset s = .next t ∧ cleared t) ∧ (∃ t, exec .vddAonLoss s = .next t ∧ cleared t ∧ t.regs = [] ∧ t.mgmt = {}) ∧
    (s.phase = .deepSleep ∨ s.phase = .tripped → exec .railFault s = .next s ∧ exec .perst s = .next s) ∧
    (s.phase ≠ .deepSleep → s.phase ≠ .tripped → (∃ t, exec .railFault s = .next t ∧ cleared t) ∧
      ∃ t, exec .perst s = .next t ∧ cleared t ∧ ∀ o, t.rd o = if aonReg o then s.rd o else
        if o = 0x900004 then s.rd o &&& 0x60000000#32 else regReset o)) ∧
  (∀ (s : State) (port : Port), s.phase = .up →
    (powerPort port = false → exec (.reinSleep port) s = .next (s.denied port)) ∧
    (powerPort port = true → s.syncState ≠ 0 → ∃ t, exec (.reinSleep port) s = .next t ∧ t.phase = .up ∧
      t.getF F.REIN_STATUS_WRITE_REJECT = 1) ∧
    (powerPort port = true → s.syncState = 0 → ∃ t, exec (.reinSleep port) s = .next t ∧ t.phase = .deepSleep ∧ t.mem = [] ∧
      t.cores = [] ∧ t.jobs = [])) ∧
  ∀ s : State,
    (s.phase = .deepSleep → exec .wakeN s = .next { s with phase := .coldReset, rein := {} } ∧
      (s.getF F.REIN_WAKE_TIMER_SECONDS ≠ 0 → exec .wakeTimer s = .next { s with phase := .coldReset, rein := {} })) ∧
    (s.phase ≠ .deepSleep → exec .wakeN s = .next s ∧ (s.getF F.REIN_WAKE_TIMER_SECONDS ≠ 0 → exec .wakeTimer s = .next s))

/-- R385 to R398, R406, R407: a boot ends halted with a code, in recovery where RECOV_N is low, up, or in cold reset with the
firmware's request to try the other set; uncorrectable fuses and a flash that does not answer halt it with their codes; on the other set's try a
flash that does not answer leaves the code of the first set's failure. In
recovery the PF loads the staged page into the stage 1 window, and the check of the window starts it or shows why not. The
model's own reading enters in: what the board shows is an operand, and the order of the codes (logs 79, 80, 81). -/
def Obligations.Boot : Prop :=
  (∀ (s : State) (b : Board), s.phase = .coldReset →
    (s.aon.retry = false → ∃ t, exec (.bootStart b) s = .next t ∧ (t.phase = .halted ∨ t.phase = .recovery ∨ t.phase = .up ∨
        (t.phase = .coldReset ∧ t.aon.retry = true)) ∧ (t.phase = .recovery → b.recovN = false) ∧
      (b.fuseUe = true → t.phase = .halted ∧ t.getF F.ASSAY_BOOT_STATUS_CODE = 0x10) ∧
      (b.fuseUe = false → (s.strap b).fusesBad = false → b.recovN = true → b.flashOk = false →
        t.phase = .halted ∧ t.getF F.ASSAY_BOOT_STATUS_CODE = 0x30) ∧
      (b.fuseUe = false → (s.strap b).fusesBad = false → b.recovN = false →
        t.phase = .recovery ∧ t.getF F.ASSAY_BOOT_STATUS_CODE = 0x0E)) ∧
    (s.aon.retry = true → ∃ t, exec (.assayRetry b) s = .next t ∧ (t.phase = .halted ∨ t.phase = .up ∨
        (t.phase = .coldReset ∧ t.aon.retry = true)) ∧
      (b.flashOk = false → t.phase = .halted ∧ (s.aon.tried = [] → t.getF F.ASSAY_BOOT_STATUS_CODE = 0x30) ∧
        ∀ set c, s.aon.tried = [(set, c)] → 0 < c → c < 256 → t.getF F.ASSAY_BOOT_STATUS_CODE = c))) ∧
  (∀ (s : State) (page : Nat), s.awaiting = true → page < 40 → ∃ t, exec (.loadPage .pf page) s = .next t ∧
    (∀ i j, i < 1024 → j < 4 → (tget win0 t.assay.window (4096 * page + 4 * i + j)).toNat =
      (s.rd (0x41000 + 4 * i)).toNat / 256 ^ j % 256) ∧
    (∀ a, (a < 4096 * page ∨ 4096 * page + 4096 ≤ a) → tget win0 t.assay.window a = tget win0 s.assay.window a) ∧
    t.getF F.ASSAY_RECOV_STATUS_STATE = 0 ∧ t.mem = s.mem) ∧
  (∀ s : State, s.awaiting = true → ∃ t, exec (.recovVerify .pf) s = .next t ∧ t.phase = .recovery ∧ t.mem = s.mem ∧
    (t.getF F.ASSAY_RECOV_STATUS_STATE = 2 ∨ t.getF F.ASSAY_RECOV_STATUS_STATE = 3) ∧ t.assay.window = s.assay.window) ∧
  ∀ (s : State) (port : Port) (page : Nat), port ≠ .pf →
    exec (.loadPage port page) s = .next (s.denied port) ∧ exec (.recovVerify port) s = .next (s.denied port)

/-- R394 to R397, R403: without a wake record, a boot that brings the device up runs only images whose header is signed by a key
whose digest is in a fuse slot that is programmed and not revoked, and whose body has the digest of its header. The model's
own reading enters in: what the board shows is an operand, and the cryptographic functions have no body (logs 7, 79, 80). -/
def Obligations.SecureStart : Prop :=
  ∀ (s : State) (b : Board) (c : Instr), s.phase = .coldReset → s.aon.wake = none →
    (s.aon.retry = false ∧ c = .bootStart b) ∨ (s.aon.retry = true ∧ c = .assayRetry b) → ∃ t, exec c s = .next t ∧
    (t.phase = .up → t.assay.images.length = 4 ∧ ∀ im ∈ t.assay.images, ∃ h body : List Nat, ∃ slot : Nat,
      im.digest = hdrDigest h ∧ im.version = hdrVersion h ∧ Config.shake256 64 body = hdrDigest h ∧ t.slotUsable slot = true ∧
      t.keyDigest slot = Config.shake256 32 ((h.drop 0x60).take 1793) ∧
      Config.falconVerify ((h.drop 0x60).take 1793) (h.take 0x780) ((h.drop 0x780).take 1280) = true)

/-- R404: a change of the carve-out and the cache commands are taken while the cache is not busy, and make it so; while it is,
they set WRITE_REJECT. When it completes, FLUSH has written the dirty lines back and kept them clean, INVALIDATE has dropped
every line, and FLUSH_INV both; a change of the carve-out has taken effect, and what it carves reads as zero. The model's
own reading enters in: the cache as a list of lines, and when a change takes effect (log 82). -/
def Obligations.HostCoreMemory : Prop :=
  (∀ (s : State) (port : Port) (w : W32), s.phase = .up → portHost port = true →
    let rows : List (Instr × Nat) := [(.flush port, 1), (.invalidate port, 2), (.flushInv port, 3)]
    (s.getF F.HOSTCORE_MEM_STATUS_BUSY = 1 → ∀ c ∈ Instr.hostcoreMemCfgWrite port w :: rows.map (·.1), ∃ t, exec c s = .next t ∧
      t.getF F.HOSTCORE_MEM_STATUS_WRITE_REJECT = 1 ∧ t.hcore = s.hcore ∧ t.mem = s.mem) ∧
    (s.getF F.HOSTCORE_MEM_STATUS_BUSY = 0 →
      (∀ e ∈ rows, ∃ t, exec e.1 s = .next t ∧ t.getF F.HOSTCORE_MEM_STATUS_BUSY = 1 ∧ t.hcore = { s.hcore with op := e.2 } ∧ t.mem = s.mem) ∧
      (s.carveOk w = true → ∃ t, exec (.hostcoreMemCfgWrite port w) s = .next t ∧ t.getF F.HOSTCORE_MEM_STATUS_BUSY = 1 ∧
        t.hcore.carve = some (w &&& 0x000F000F#32) ∧ t.mem = s.mem))) ∧
  ∀ (s : State) (a : Nat) (b : List Nat), s.phase = .up → s.getF F.HOSTCORE_MEM_STATUS_BUSY = 1 →
    ∃ t, exec .cacheOpComplete s = .next t ∧ t.getF F.HOSTCORE_MEM_STATUS_BUSY = 0 ∧ t.hcore.carve = none ∧ t.hcore.op = 0 ∧
      (s.hcore.carve = none → s.hcore.lines = [(a, b, true)] →
        (s.hcore.op = 1 ∨ s.hcore.op = 3 → ∀ j, j < b.length → t.ld8 (a + j) = b.getD j 0 % 256) ∧
        (s.hcore.op = 1 → t.hcore.lines = [(a, b, false)]) ∧ (s.hcore.op = 2 ∨ s.hcore.op = 3 → t.hcore.lines = []) ∧
        (s.hcore.op = 2 → t.mem = s.mem)) ∧
      ∀ v, s.hcore.carve = some v → t.rd 0xA00000 = v ∧ t.hcore.lines = [] ∧
        ∀ x, hostMem + newF v F.HOSTCORE_MEM_CFG_L2_BASE * 0x100000 ≤ x →
          x < hostMem + (newF v F.HOSTCORE_MEM_CFG_L2_BASE + newF v F.HOSTCORE_MEM_CFG_L2_SIZE) * 0x100000 → t.ld8 x = 0

/-! ### Failures, and registers -/

/-- R467 to R469, R477: RAS_CMD from the PF or the DRT, RESET from the management port too, and an FLR of the PF wait for the
snapshot. There a command that its domain refuses says why; a RESET of a core whose fence is open closes it, clears the core
and zeroes its store; an INJECT arms one flip; a device reset puts the device into cold reset. The model's own reading
enters in: what a reset of a domain loses (logs 45, 81). -/
def Obligations.RasCommands : Prop :=
  (∀ (s : State) (port : Port) (dt i : Nat), s.phase = .up → dt < 8 → i < 256 →
    (∀ e ∈ [(Instr.rasReset port dt i, 1), (.rasRetire port dt i, 2), (.rasInject port dt i, 3)],
      (portHost port = true → exec e.1 s = .next (s.latch (.rasCmd e.2 dt i))) ∧
      (port = .mgmt → exec e.1 s = .next (if e.2 = 1 then s.latch (.rasCmd 1 dt i) else s.denied port)) ∧
      (∀ v, port = .vf v → exec e.1 s = .next (s.denied port))) ∧
    exec .pfFlr s = .next (s.latch .deviceReset)) ∧
  ∀ (s : State) (k now op dt i : Nat), s.phase = .up →
    let t := s.applyEv k now (.rasCmd op dt i)
    (∀ r, r < 256 → s.rasRefusal op dt i = some r → t.getF F.RAS_CMD_RESULT_STATE = 2 ∧ t.getF F.RAS_CMD_RESULT_REASON = r ∧
      t.getF F.RAS_STATUS_CMD_REJECT = 1 ∧ t.cores = s.cores ∧ t.mem = s.mem ∧ t.jobs = s.jobs) ∧
    (s.rasRefusal op dt i = none → op = 1 → dt = 0 → i < 64 → ∀ slot, s.slotOf i = some slot → s.coreFenced i = false →
      t.coreFenced i = true ∧ t.core slot = { retired := (s.core slot).retired, retirePending := (s.core slot).retirePending } ∧
      ∀ x, storeBase i ≤ x → x < storeBase i + storeSize → t.ld8 x = 0) ∧
    (s.rasRefusal op dt i = none → op = 3 → ∀ slot, s.slotOf i = some slot → (t.core slot).guard.inject = true ∧ t.mem = s.mem ∧
      t.getF F.RAS_CMD_RESULT_STATE = 1) ∧
    (s.applyEv k now .deviceReset).phase = .coldReset

/-- R13, R14, R29, R523, Table SC-7: an access that is not an aligned word is not performed, and counted; a write of an offset
that the register maps do not define, or of a unit that is absent, does nothing; in one they define, each field takes the write by its type. A write of a
register whose write is a command of its own does what that command does. The model's own reading enters in: a write of a
register that has a command of its own does what that does, and accesses that are not aligned words (logs 95, 96). -/
def Obligations.RegisterWrites : Prop :=
  (∀ (s : State) (port : Port) (now off : Nat) (w : W32), s.phase = .up →
    (off % 4 ≠ 0 → port ≠ .drt → ∃ t, exec (.registerWrite port now off w) s = .next t ∧ t = { s with regs := t.regs } ∧
      t.getF F.RAS_UNPOP_WR_COUNT = min (s.getF F.RAS_UNPOP_WR_COUNT + 1) (2 ^ 32 - 1) ∧ ∀ o, o ≠ 0x800070 → t.rd o = s.rd o) ∧
    (off % 4 = 0 → off < 0x10000 ∨ (0x400000 ≤ off ∧ off < 0x500000) → portHost port = true →
      exec (.registerWrite port now off w) s = .next (s.portWrite off w)) ∧
    (off % 4 = 0 → off < 0x10000 ∨ (0x400000 ≤ off ∧ off < 0x600000) → portHost port = false →
      exec (.registerWrite port now off w) s = .next (s.denied port))) ∧
  (∀ (s : State) (off : Nat) (w : W32), regAt off = none ∨ s.offAbsent off = true → s.portWrite off w = s) ∧
  (∀ (s : State) (off : Nat) (w : W32) (d : RegDesc) (f : RegField), regAt off = some d → s.offAbsent off = false →
    d.fields.Pairwise (fun a b => a.lo + a.width ≤ b.lo ∨ b.lo + b.width ≤ a.lo) → f ∈ d.fields → f.lo + f.width ≤ 32 →
    let t := s.portWrite off w
    let old := fieldOf (s.rd off) f.lo f.width
    let new := fieldOf w f.lo f.width
    (∀ o, o ≠ off → t.rd o = s.rd o) ∧ fieldOf (t.rd off) f.lo f.width = match f.acc with
      | .rw => new
      | .ro => old
      | .wo => old
      | .rc => old
      | .w1c => (BitVec.ofNat 32 old &&& ~~~(BitVec.ofNat 32 new)).toNat
      | .w1s => (BitVec.ofNat 32 old ||| BitVec.ofNat 32 new).toNat) ∧
  ∀ (s : State) (port : Port) (now r p q : Nat) (w : W32), s.phase = .up → r < 16384 → p < 8 →
    let does (off : Nat) (c : Instr) : Prop := exec (.registerWrite port now off w) s = exec c s
    does 0x10004 (.pacePeriodWrite port w) ∧ (w.getLsbD 0 = true → does 0x10000 (.paceEnable port now w)) ∧
    (w.getLsbD 0 = false → does 0x10000 (.paceDisable port now w)) ∧ does 0x20000 (.reinGaitWrite port w) ∧
    (w.getLsbD 0 = true → does 0x20040 (.reinSleep port)) ∧ does 0x200000 (.dispShareWrite port 0x200000 w) ∧
    (w.getLsbD 31 = true → does (0x100004 + 64 * r) (.ringEnable port r w)) ∧
    (w.getLsbD 31 = false → does (0x100004 + 64 * r) (.ringDisable port r w)) ∧
    (q < 4 → does (0x3C0000 + 0x100 * p + 4 * q) (.kvaConfigWrite port p (4 * q) w)) ∧
    does (0x3C0014 + 0x100 * p) (.kvaFreePush port p w) ∧ does 0x60011C (.fabJobTpWrite port w) ∧
    does 0x600120 (.fabJobArrive port w) ∧ does 0x700018 (.jpegSubmit port w) ∧ does 0xA00000 (.hostcoreMemCfgWrite port w) ∧
    (∀ q, q < 8 → does (0x701010 + 0x40 * q) (.rawIspCommit port q w)) ∧
    ∀ n d, n < 4096 → d < 32 → does (0x780000 + 128 * n + 4 * d) (.streamCtxWrite port n d w)

/-- R344, R352: a write of GPCT within 50 to 100 that keeps the capacity condition of every live partition takes effect at once;
one outside the range changes nothing. A write of a partition's host-work share by a port that may configure it waits for
the snapshot; another is denied. The model's own reading enters in: who may write the DISP_P registers (log 43). -/
def Obligations.Shares : Prop :=
  ∀ (s : State) (port : Port) (w : W32) (off : Nat), s.phase = .up →
    let v := newF w F.DISP_CTRL_GPCT
    (portHost port = true →
      (50 ≤ v → v ≤ 100 → (∀ p, p < 8 → (s.setF F.DISP_CTRL_GPCT v).guarOk p = true) → ∃ t,
        exec (.dispShareWrite port 0x200000 w) s = .next t ∧ t.getF F.DISP_CTRL_GPCT = v ∧ t = { s with regs := t.regs }) ∧
      (v < 50 ∨ 100 < v → exec (.dispShareWrite port 0x200000 w) s = .next s)) ∧
    (portHost port = false → exec (.dispShareWrite port 0x200000 w) s = .next (s.denied port)) ∧
    (0x200100 ≤ off → off < 0x200180 → off % 16 < 8 → off % 4 = 0 →
      (s.partPort port ((off - 0x200100) / 16) = true → exec (.dispShareWrite port off w) s = .next (s.latch (.cfgWrite off w))) ∧
      (s.partPort port ((off - 0x200100) / 16) = false → exec (.dispShareWrite port off w) s = .next (s.denied port)))

/-! ### The vision front end -/

/-- R284 to R288, R310, R311: ACTIVATE and DEACTIVATE wait for the snapshot, or are rejected where 64 wait. There an ACTIVATE
that a check refuses leaves the context and shows the reason; one that passes makes it ACTIVE with FRAME 0 and every buffer
free, or for a gated decoder group waits for its power, which then makes it ACTIVE; a DEACTIVATE makes an ACTIVE context
DRAINING. A write to a FREE context takes effect at once in its dword alone; to an ACTIVE one, in live fields, at the
snapshot. The model's own reading enters in: which fields ACTIVATE judges (log 56). -/
def Obligations.StreamContexts : Prop :=
  (∀ (s : State) (port : Port) (n i : Nat), s.phase = .up → portHost port = true → n < 4096 → i < 64 →
    (∀ e ∈ [(Instr.activate port n, 1), (.deactivate port n, 2)],
      (s.visQueued < 64 → exec e.1 s = .next (s.latch (.visCmd e.2 n))) ∧
      (64 ≤ s.visQueued → ∃ t, exec e.1 s = .next t ∧ t.events = s.events ∧ t.getF F.VIS_STATUS_CMD_REJECT = 1)) ∧
    ∃ t, exec (.fbRelease port n i) s = .next t ∧ i ∉ (t.sctx n).held ∧ (∀ j, j ≠ i → (j ∈ (t.sctx n).held ↔ j ∈ (s.sctx n).held)) ∧
      t.mem = s.mem ∧ ∀ m, m ≠ n → t.sctx m = s.sctx m) ∧
  (∀ (s : State) (k now n : Nat), s.phase = .up → n < 4096 →
    let t := s.applyEv k now (.visCmd 1 n)
    (∀ r, r < 256 → s.activateRefusal n = some r → t.cSTATE n = s.cSTATE n ∧ t.getF F.VIS_CTX_RESULT_STATE = 2 ∧
      t.getF F.VIS_CTX_RESULT_REASON = r ∧ t.vis = s.vis) ∧
    (s.activateRefusal n = none → s.cNET n = false ∨ s.grp (s.cDEC n / 4) = 2 → t.cSTATE n = 1 ∧ t.sctx n = {} ∧
      t.cx n 12 63 32 = 0 ∧ t.mem = s.mem) ∧
    (s.activateRefusal n = none → s.cNET n = true → s.grp (s.cDEC n / 4) ≠ 2 → t.cSTATE n = 0 ∧ (t.sctx n).waking = true) ∧
    (s.cSTATE n = 1 → (s.applyEv k now (.visCmd 2 n)).cSTATE n = 2 ∧ ((s.applyEv k now (.visCmd 2 n)).sctx n).units = [])) ∧
  (∀ (s : State) (g n : Nat), s.phase = .up → g < 4 → n < 4096 → s.grp g = 1 → (s.sctx n).waking = true → s.cNET n = true →
    s.cDEC n / 4 = g → n ∈ s.listedCtxs → ∃ t, exec (.decoderGroupPowered g) s = .next t ∧ t.grp g = 2 ∧ t.cSTATE n = 1 ∧
      (t.sctx n).waking = false ∧ t.mem = s.mem) ∧
  ∀ (s : State) (port : Port) (n d : Nat) (w : W32), s.phase = .up → n < 4096 → d < 32 →
    let o := ctxOff n + 4 * d
    (port = .mgmt → exec (.streamCtxWrite port n d w) s = .next (s.denied port)) ∧
    (port = .pf ∨ port = .drt → s.shareOwner n = none → s.cSTATE n = 0 → (s.sctx n).waking = false → d ≠ 1 →
      (d < 24 ∨ 27 < d) → ∃ t, exec (.streamCtxWrite port n d w) s = .next t ∧ t.rd o = w ∧ (∀ x, x ≠ o → t.rd x = s.rd x) ∧
        t = { s with regs := t.regs }) ∧
    (port = .pf → s.shareOwner n = none → s.cSTATE n = 1 → d = 2 ∨ d = 13 → w ≠ s.rd o ∨ s.liveWaits n d = true →
      exec (.streamCtxWrite port n d w) s = .next (s.latch (.ctxLive n d w))) ∧
    (port = .pf → s.shareOwner n = none → s.cSTATE n = 2 → 4 ≤ d → d < 13 → w ≠ s.rd o → ∃ t,
      exec (.streamCtxWrite port n d w) s = .next t ∧ t.rd o = s.rd o ∧ t.getF F.VIS_STATUS_WRITE_REJECT = 1)

/-- R289 to R295: an enabled port that waits opens a frame with VS, at its size and format; HS opens a line; a sample with DE
joins the open line up to WIDTH, is lost beyond it, and is counted as stray with no line open; VS inactive, or the timeout,
closes the frame. A commit is pending until a frame opens, which takes the shadow set. The ISP takes the oldest closed frame
of its port. A port that is disabled ignores every event. The model's own reading enters in: the shadow sets and what closes
a frame (logs 53, 54, 60). -/
def Obligations.RawCapture : Prop :=
  ∀ (s : State) (p now d : Nat), s.phase = .up → s.rawPresent p = true →
    let all : List Instr := [.rawFrameOpen p, .rawLineStart p, .rawPixel p d, .rawFrameClose p now, .rawTimeout p now]
    let stray (t : State) : Prop := t.getF (F.RAW_STRAY_COUNT p) = min (s.getF (F.RAW_STRAY_COUNT p) + 1) (2 ^ 32 - 1) ∧ t.vis = s.vis
    (s.getF (F.RAW_CTRL_EN p) = 0 → ∀ c ∈ all, exec c s = .next s) ∧
    (s.getF (F.RAW_CTRL_EN p) = 1 →
      (s.rawState p = 1 → s.rawCtx p = none → ∃ t f, exec (.rawFrameOpen p) s = .next t ∧ t.rawState p = 2 ∧
        (t.rawPort p).frame = some f ∧ f.w = s.getF (F.RAW_SIZE_WIDTH p) ∧ f.h = s.getF (F.RAW_SIZE_HEIGHT p) ∧
        f.fmt = s.getF (F.RAW_CTRL_FORMAT p) ∧ f.fb = none ∧ f.lines = [] ∧ f.cur = none ∧
        t.getF (F.RAW_STATUS_COMMIT_PENDING p) = 0 ∧
        f.set = (if s.getF (F.RAW_STATUS_COMMIT_PENDING p) = 1 then s.ispShadow p else (s.rawPort p).set) ∧ t.mem = s.mem) ∧
      ((s.rawPort p).frame = none → exec (.rawLineStart p) s = .next s ∧ ∃ t, exec (.rawPixel p d) s = .next t ∧ stray t) ∧
      (∀ f, (s.rawPort p).frame = some f →
        (∃ t g, exec (.rawLineStart p) s = .next t ∧ (t.rawPort p).frame = some g ∧ g.cur = some [] ∧ g.w = f.w ∧
          (f.cur = none → g = { f with cur := some [] })) ∧
        (f.cur = none → ∃ t, exec (.rawPixel p d) s = .next t ∧ stray t) ∧
        (∀ px, f.cur = some px → ∃ t, exec (.rawPixel p d) s = .next t ∧ (t.rawPort p).frame =
          some (if px.length < f.w then { f with cur := some (px ++ [d % 65536]) } else { f with cut := true })) ∧
        (s.rawState p = 2 → f.cur = none → f.count = f.h →
          (∃ t, exec (.rawFrameClose p now) s = .next t ∧ t.rawState p = 1 ∧ (t.rawPort p).frame = none ∧
            (f.fb.isSome = true → (t.rawPort p).isp = (s.rawPort p).isp ++ [{ f with pad := 0, time := now }])) ∧
          ∃ t, exec (.rawTimeout p now) s = .next t ∧ t.rawState p = 3 ∧ (t.rawPort p).frame = none)) ∧
      (s.rawState p = 3 → ∃ t, exec (.rawFrameClose p now) s = .next t ∧ t.rawState p = 1 ∧ t.vis = s.vis)) ∧
    (∀ (port : Port) (w : W32), portHost port = true → w.getLsbD 0 = true → ∃ t, exec (.rawIspCommit port p w) s = .next t ∧
      t.getF (F.RAW_STATUS_COMMIT_PENDING p) = 1 ∧ t.vis = s.vis ∧ t.mem = s.mem) ∧
    ∀ f rest, (s.rawPort p).isp = f :: rest → ∃ t, exec (.ispFrameComplete p) s = .next t ∧
      t.rawPort p = { s.rawPort p with isp := rest } ∧ (f.fb = none → t.mem = s.mem)

/-- R301 to R307, R315 to R318, R357: a frame that nothing else takes goes to the host cores, as does an RTCP packet; an RTP
packet that no context matches is counted and goes there too, and one of another payload type is dropped. Numbers missing
for REORDER_US are declared lost and counted. A complete unit whose time has passed is released to its decoder. A free Swage
engine takes the first queued job with its profile as it stands, and is free when the job ends. The model's own reading
enters in: when a frame is judged damaged or late (log 58). -/
def Obligations.IngestAndScale : Prop :=
  (∀ (s : State) (f now : Nat) (frame b : List Nat) (src dport : Nat), s.phase = .up → f < 2 → s.getF (F.FAB_PORT_STATE f) = 2 →
    let toHost (t : State) : Prop := t.fab = { s.fab with toHost := s.fab.toHost ++ [(f, frame)] } ∧ t.vis = s.vis ∧ t.mem = s.mem
    let dropped (t : State) : Prop := t.getF F.VIS_PKT_DROP_COUNT = min (s.getF F.VIS_PKT_DROP_COUNT + 1) (2 ^ 32 - 1) ∧
      t = { s with regs := t.regs }
    (s.harnessOf f frame = none → isPtp frame = false → s.cameraOf f frame = .no → ∃ t,
      exec (.hostCoreFrame f frame) s = .next t ∧ toHost t) ∧
    (s.cameraOf f frame = .drop → ∃ t, exec (.cameraPacket f now frame) s = .next t ∧ dropped t) ∧
    (s.cameraOf f frame = .packet src dport b →
      (200 ≤ beAt b 1 1 → beAt b 1 1 ≤ 204 → ∃ t, exec (.cameraPacket f now frame) s = .next t ∧ toHost t) ∧
      (beAt b 1 1 < 200 ∨ 204 < beAt b 1 1 →
        (s.matchCtx src dport (rtpOf b).ssrc = none → ∃ t, exec (.cameraPacket f now frame) s = .next t ∧ toHost t ∧
          t.getF F.VIS_UNMATCHED_COUNT = min (s.getF F.VIS_UNMATCHED_COUNT + 1) (2 ^ 32 - 1)) ∧
        ∀ n, s.matchCtx src dport (rtpOf b).ssrc = some n →
          ((rtpOf b).pt ≠ s.cx n 0 38 32 → ∃ t, exec (.cameraPacket f now frame) s = .next t ∧ dropped t) ∧
          ((rtpOf b).pt = s.cx n 0 38 32 → ∃ t, exec (.cameraPacket f now frame) s = .next t ∧ t.phase = .up ∧ t.events = s.events)))) ∧
  (∀ (s : State) (n now : Nat), s.phase = .up → n < 4096 → s.cSTATE n = 1 →
    let gone := (((s.sctx n).missing.filter fun m => decide (m.2 + 1000 * s.cx n 6 63 48 ≤ now)).map (·.1))
    gone ≠ [] → (s.sctx n).units = [] → ∃ t, exec (.packetLossDeclared n now) s = .next t ∧
      (t.sctx n).lost = (s.sctx n).lost ++ gone ∧ (∀ m ∈ (t.sctx n).missing, m ∈ (s.sctx n).missing ∧ m.1 ∉ gone) ∧
      t.cx n 13 47 32 = min (s.cx n 13 47 32 + gone.length) 65535 ∧ t.mem = s.mem) ∧
  (∀ (s : State) (n now : Nat) (u : AccessUnit) (rest : List AccessUnit), s.phase = .up → n < 4096 → (s.sctx n).units = u :: rest →
    u.stage = 1 → u.firstAt + 1000 * s.cx n 6 47 32 ≤ now → ∃ t, exec (.accessUnitRelease n now) s = .next t ∧
      t.vis.released = s.vis.released ++ [(n, u.ts)] ∧ { u with stage := 2 } ∈ (t.sctx n).units ∧ t.mem = s.mem ∧ t.regs = s.regs) ∧
  ∀ (s : State) (e : Nat) (j : SwageJob) (rest : List SwageJob) (ws : List W32), s.phase = .up → e < 4 →
    (tget swage0 s.vis.swages e = none → s.vis.swageQ = j :: rest → ∃ t, exec (.swageJobStart e) s = .next t ∧
      t.vis.swageQ = rest ∧ tget swage0 t.vis.swages e = some (j, s.profile (s.cSPROF j.ctx j.out)) ∧ t.mem = s.mem) ∧
    (tget swage0 s.vis.swages e = some (j, ws) → s.swageHeld j ws = none → ∃ t, exec (.swageJobComplete e) s = .next t ∧
      tget swage0 t.vis.swages e = none ∧ ∀ x, x ≠ e → tget swage0 t.vis.swages x = tget swage0 s.vis.swages x)

/-- R308 to R314, R467: a decoder takes the first unit released to it and, where it can decode it and a buffer is free, takes
the buffer and begins; its completion frees it. One that hangs closes its group's fence. An encoder takes the first picture
of its queue and writes it, with its header, at its place in the encoder ring. A JPEG request reads its four words when it
is submitted, waits its turn, and ends with its file and DONE, or with an error. The model's own reading enters in: pictures
and streams are operands, and when requests are read (logs 57, 59). -/
def Obligations.Codecs : Prop :=
  (∀ (s : State) (d n ts b : Nat) (u : AccessUnit) (i : UnitInfo) (p : Picture) (x : Decode), s.phase = .up → d < 16 → s.decPresent d = true →
    (s.decAt d = none → s.grp (d / 4) = 2 → (s.fence 3 (d / 4)).closed = false →
      s.vis.released.find? (fun e => s.cDEC e.1 == d) = some (n, ts) → (s.sctx n).units.find? (fun v => v.ts == ts) = some u →
      i.rap = true → unitSupported (s.cx n 0 54 53) i = true → frameBytes i.w i.h (s.cP010 n) ≤ s.cFBSIZE n → s.fbNext n = some b →
      ∃ t, exec (.decodeStart d i) s = .next t ∧ b ∈ (t.sctx n).held ∧
        (∃ y, t.decAt d = some y ∧ y.ctx = n ∧ y.num = u.num ∧ y.stream = s.unitStream n u ∧ y.conceal = false) ∧
        (t.sctx n).noRef = false ∧ (n, u.ts) ∉ t.vis.released ∧ t.mem = s.mem ∧
        ∃ f, f ∈ t.vis.frames ∧ f.ctx = n ∧ f.num = u.num ∧ f.fb = b ∧ f.width = i.w ∧ f.height = i.h) ∧
    (s.decAt d = some x →
      (∃ t, exec (.decodeComplete d p) s = .next t ∧ t.decAt d = none) ∧
      ((s.fence 3 (d / 4)).closed = false → ∃ t, exec (.decoderTimeout d) s = .next t ∧ t.decAt d = none ∧
        (t.fence 3 (d / 4)).closed = true))) ∧
  (∀ (s : State) (e : Nat) (q : EncJob) (rest : List EncJob) (b : List Nat), s.phase = .up → s.encPresent e = true →
    (tget enc0 s.vis.encs e = none → tget encq0 s.vis.encQ e = q :: rest → ∃ t, exec (.encodeStart e) s = .next t ∧
      tget enc0 t.vis.encs e = some q ∧ tget encq0 t.vis.encQ e = rest ∧ t.mem = s.mem) ∧
    (tget enc0 s.vis.encs e = some q → codedOk (s.idrNext q.ctx) b = true →
      let pos := (s.sctx q.ctx).encPos
      let a := s.cEO q.ctx + pos
      let len := 16 + (b.length + 15) / 16 * 16
      ∃ t, exec (.encodeComplete e b) s = .next t ∧ tget enc0 t.vis.encs e = none ∧
        (t.sctx q.ctx).encCount = (s.sctx q.ctx).encCount + 1 ∧
        (pos + len ≤ s.cEOSIZE q.ctx → (t.sctx q.ctx).encPos = pos + len ∧ t.ldN a 4 = q.num % 2 ^ 32 ∧
          t.ldN (a + 4) 4 = b.length % 2 ^ 32 ∧ (∀ j, j < b.length → t.ld8 (a + 16 + j) = b.getD j 0 % 256) ∧
          ∀ z, (z < a ∨ a + len ≤ z) → t.ld8 z = s.ld8 z))) ∧
  ∀ (s : State) (port : Port) (w : W32) (j : JpegJob) (rest : List JpegJob) (b : List Nat), s.phase = .up →
    (portHost port = true → s.vis.jpegQ.length < 64 → ∃ t r, exec (.jpegSubmit port w) s = .next t ∧ t.vis.jpegQ = s.vis.jpegQ ++ [r] ∧
      r.words.length = 4 ∧ (∀ i, i < 4 → (r.words.getD i 0#64).toNat = s.ldN (r.addr + 8 * i) 8) ∧ t.mem = s.mem ∧ t.regs = s.regs) ∧
    (portHost port = true → 64 ≤ s.vis.jpegQ.length → ∃ t, exec (.jpegSubmit port w) s = .next t ∧ t.vis = s.vis ∧
      t.getF F.VIS_STATUS_CMD_REJECT = 1) ∧
    (s.jpegPresent = true → s.vis.jpeg = none → s.vis.jpegQ = j :: rest → ∃ t, exec .jpegJobStart s = .next t ∧
      t.vis.jpeg = some j ∧ t.vis.jpegQ = rest ∧ t.mem = s.mem) ∧
    (s.jpegPresent = true → s.vis.jpeg = some j →
      ∃ t, exec (.jpegJobComplete b) s = .next t ∧ t.vis.jpeg = none ∧ t.getF F.VIS_STATUS_JPEG_DONE = 1 ∧
        (s.jpegError j b.length = none → t.ldN (j.addr + 24) 4 = 2 ^ 31 + b.length % 2 ^ 22 * 2 ^ 8) ∧
        (∀ r, s.jpegError j b.length = some r → r ≠ rLengthBounds → t.ldN (j.addr + 24) 4 = 2 ^ 31 + 2 ^ 30 + r))

/-! ### Harness Link and jobs -/

/-- R360 to R366: a message that R361 drops changes nothing but its count. On a flow that is DOWN nothing happens. Else ACK
takes from the flow what it acknowledges, and a message received twice is counted and acknowledged. A message in order moves
the flow on by one: a FREQ is the leader's report, DATA waits in its slot for its operation, unless
that has ended over a bad destination, and every other one waits for
the snapshot. One beyond the next is held. An acknowledgement goes out where one is due, or where its timer expires; a
retransmission timer retransmits, or takes the flow DOWN; a port that fails or comes back is reported, and with no port up
the flows go DOWN. No byte of memory changes. The model's own reading enters in: credits, the time at which a FREQ applies,
and a flow that goes DOWN (logs 69, 70, 74). -/
def Obligations.FabricMessages : Prop :=
  (∀ (s : State) (f : Nat) (frame b : List Nat) (ok : Bool), s.phase = .up → f < 2 → s.getF (F.FAB_PORT_STATE f) = 2 →
    s.harnessOf f frame = some (b, ok) →
    let m := recvOf b
    let p := m.src
    let x := s.flow p
    let h : HMsg := { typ := m.typ, seq := m.seq, tick := m.tick, arg := m.arg, payload := m.payload }
    ∀ c : Instr, (m.typ = 0 ∧ c = .ackMsg f frame) ∨ (m.typ = 1 ∧ c = .dataMsg f frame) ∨ (m.typ = 2 ∧ c = .barrierMsg f frame) ∨
        (m.typ = 3 ∧ c = .freqMsg f frame) ∨ (m.typ = 4 ∧ c = .fannMsg f frame) ∨
        (m.typ = 5 ∧ m.arg / 2 ^ 56 = 1 ∧ c = .membJoin f frame) ∨ (m.typ = 5 ∧ m.arg / 2 ^ 56 = 2 ∧ c = .membLeave f frame) ∨
        (m.typ = 6 ∧ c = .jfaultMsg f frame) →
      (s.fabDrops frame b ok m = true → ∃ t, exec c s = .next t ∧ t.getF F.FAB_DROP_COUNT = min (s.getF F.FAB_DROP_COUNT + 1) (2 ^ 32 - 1) ∧
        t.fab = s.fab ∧ t.events = s.events ∧ t.mem = s.mem) ∧
      (s.fabDrops frame b ok m = false → x.down = true → exec c s = .next s) ∧
      (s.fabDrops frame b ok m = false → x.down = false → x.waiting = [] → s.fab.running = none →
        (m.typ = 0 → beAt m.payload 0 8 = 0 → ∃ t, exec c s = .next t ∧ (t.flow p).spent = x.spent - m.credit ∧
          (t.flow p).unacked = x.unacked.filter (fun u => !(seqBefore u.msg.seq m.ack)) ∧ (t.flow p).rxNext = x.rxNext ∧
          (∀ q, q ≠ p → t.flow q = s.flow q) ∧ t.fab.wire = s.fab.wire ∧ t.events = s.events ∧ t.mem = s.mem) ∧
        (m.typ ≠ 0 → x.unacked = [] →
          let acked (t : State) : Prop := (t.flow p).unseen = 0 ∧ ∃ l g k a, t.fab.wire = s.fab.wire ++ l ++ [(g, k, a)] ∧
            (a.drop s.headLen).head? = some 0x10
          (seqBefore m.seq x.rxNext = true → ∃ t, exec c s = .next t ∧ acked t ∧ t.events = s.events ∧ t.mem = s.mem ∧
            (t.flow p).rxNext = x.rxNext ∧ t.getF F.FAB_DUP_COUNT = min (s.getF F.FAB_DUP_COUNT + 1) (2 ^ 32 - 1)) ∧
          (seqBefore m.seq x.rxNext = false → m.seq ≠ x.rxNext → x.held = [] → ∃ t, exec c s = .next t ∧ acked t ∧
            (t.flow p).held = [h] ∧ (t.flow p).rxNext = x.rxNext ∧ t.events = s.events ∧ t.mem = s.mem) ∧
          (m.seq = x.rxNext → x.held = [] → ∃ t, exec c s = .next t ∧ t.mem = s.mem ∧
            (t.flow p).rxNext = (x.rxNext + 1) % 2 ^ 32 ∧ (t.flow p).held = [] ∧
            (m.ackreq = true ∨ 7 ≤ x.unseen → acked t) ∧
            (m.typ = 1 → t.events = s.events ∧ t.fab.parked =
              if dataOPID m.arg ∈ s.fab.spoiled ∧ s.dataBad h = true then s.fab.parked else s.fab.parked ++ [(p, h)]) ∧
            (m.typ = 3 → s.jobState = 2 → s.fabLeader = s.fid → s.fab.fannTick ≠ some m.tick →
              (m.tick, p, m.arg % 4096) ∈ t.fab.reports ∧ t.events = s.events) ∧
            (m.typ ≠ 1 → m.typ ≠ 3 → t.events = s.events ++ [.fabMsg m.seq p m.typ m.arg m.payload]))))) ∧
  (∀ (s : State) (p : Nat), s.phase = .up → p < 64 →
    let x := s.flow p
    (x.unseen ≠ 0 → ∃ t, exec (.ackTimer p) s = .next t ∧ (t.flow p).unseen = 0 ∧ (t.flow p).rxNext = x.rxNext ∧
      (s.upPorts ≠ [] → t.fab.wire.length = s.fab.wire.length + 1) ∧ (∀ q, q ≠ p → t.flow q = s.flow q) ∧ t.mem = s.mem) ∧
    (∀ seq u, x.down = false → x.unacked.find? (fun u => u.msg.seq == seq) = some u → ∃ t, exec (.retransmitTimeout p seq) s = .next t ∧ t.mem = s.mem ∧
      (∀ g, u.plane = some g → 1 ≤ tget nat0 x.timeouts g → g ∈ (t.flow p).avoid) ∧
      (s.getF F.FAB_TIMERS_RETRY_MAX ≤ u.tries → (t.flow p).down = true ∧ (t.flow p).unacked = [] ∧ t.events = s.events ++ [.fabReport] ∧
        t.getF (F.FAB_JOB_UNREACH_MEMBERS (p / 32)) / 2 ^ (p % 32) % 2 = 1) ∧
      (u.tries < s.getF F.FAB_TIMERS_RETRY_MAX → t.events = s.events ∧
        (∃ v, v ∈ (t.flow p).unacked ∧ v.msg = u.msg ∧ v.tries = u.tries + 1) ∧
        (s.upPorts ≠ [] → t.getF F.FAB_RETX_COUNT = min (s.getF F.FAB_RETX_COUNT + 1) (2 ^ 32 - 1)))) ∧
    ∀ f, f ∈ x.avoid → ∃ t, exec (.planeRetry p f) s = .next t ∧ t.flow p = { x with
      avoid := x.avoid.filter (· ≠ f), timeouts := tset nat0 x.timeouts f 0 } ∧ (∀ q, q ≠ p → t.flow q = s.flow q)) ∧
  ∀ (s : State) (f now : Nat), s.phase = .up → f < 2 →
    (s.getF (F.FAB_PORT_STATE f) = 2 → ∃ t, exec (.portDown f now) s = .next t ∧ t.getF (F.FAB_PORT_STATE f) = 1 ∧
      .fabReport ∈ t.events ∧ t.mem = s.mem ∧
      (s.upPorts = [f] → s.jobState = 2 → ∀ p ∈ s.others, (t.flow p).down = true)) ∧
    (s.getF (F.FAB_PORT_STATE f) = 1 → ∃ t, exec (.portUp f) s = .next t ∧ t.getF (F.FAB_PORT_STATE f) = 2 ∧
      t.events = s.events ++ [.fabReport] ∧ f ∉ t.fab.moved ∧ t.mem = s.mem)

/-- R367 to R381: JOIN, LEAVE and a write of FAB_JOB_TP wait for the snapshot; there JOIN enters JOINING or is rejected, LEAVE
from JOINING ends at once and from FORMED two ticks later, and only the leader's period is taken. An arrival is accepted for
the barrier due alone. The leader announces the least report, with each member's last where one is missing. A barrier that
has timed out faults the job and names the late members. An operation at the head begins once: one refused or empty ends
with its record; else it runs, an operation barrier having sent its BARRIER to every other member. The model's own reading
enters in: membership messages and rejected operations (logs 72, 74). -/
def Obligations.FabricJob : Prop :=
  (∀ (s : State) (port : Port) (w : W32), s.phase = .up →
    (portHost port = true →
      exec (.fabJoin port) s = .next (s.latch (.cfgWrite 0x600110 0x40000000#32)) ∧
      exec (.fabLeave port) s = .next (s.latch (.cfgWrite 0x600110 0x80000000#32)) ∧
      exec (.fabJobTpWrite port w) s = .next (s.latch (.cfgWrite 0x60011C w)) ∧
      (s.jobState = 2 → w.toNat = s.fab.bar % 2 ^ 32 → ∃ t, exec (.fabJobArrive port w) s = .next t ∧
        t.events = s.events ++ [.fabArrive w.toNat] ∧ t.mem = s.mem ∧ t.fab.bar = s.fab.bar) ∧
      (s.jobState ≠ 2 ∨ w.toNat ≠ s.fab.bar % 2 ^ 32 → ∃ t, exec (.fabJobArrive port w) s = .next t ∧ t.events = s.events ∧
        t.fab = s.fab ∧ t.getF F.FAB_STATUS_WRITE_REJECT = 1)) ∧
    (portHost port = false → ∀ c ∈ [Instr.fabJoin port, .fabLeave port, .fabJobTpWrite port w, .fabJobArrive port w],
      exec c s = .next (s.denied port))) ∧
  (∀ (s : State) (k now : Nat) (v : W32), s.phase = .up →
    let join := s.applyEv k now (.cfgWrite 0x600110 0x40000000#32)
    let leave := s.applyEv k now (.cfgWrite 0x600110 0x80000000#32)
    let tp := s.applyEv k now (.cfgWrite 0x60011C v)
    let may := s.jobState = 0 ∧ s.fabMembers / 2 ^ s.fid % 2 = 1 ∧ s.getF F.PACE_STATUS_ALIGNED = 1 ∧ s.rEN s.jobRing = 1 ∧
      s.rPART s.jobRing = s.jobPart
    (may → join.jobState = 1 ∧ join.fab.ownMhz = s.allowedF) ∧
    (¬ may → join.jobState = s.jobState ∧ join.fab = s.fab ∧ join.getF F.FAB_STATUS_CMD_REJECT = 1) ∧
    (s.jobState = 1 ∨ s.jobState = 3 → leave.jobState = 0 ∧ leave.fab.ops = []) ∧
    (s.jobState = 2 → s.fab.ownLeave = none → leave.jobState = 2 ∧ leave.fab.ownLeave = some (k + 2)) ∧
    (let x := newF v F.FAB_JOB_TP_TP_US
     (s.jobState = 2 ∧ s.fabLeader = s.fid ∧ 1000 ≤ x ∧ x ≤ 100000 → tp.fab.newTp = x ∧ tp.getF F.FAB_JOB_TP_TP_US = x) ∧
     (¬ (s.jobState = 2 ∧ s.fabLeader = s.fid ∧ 1000 ≤ x ∧ x ≤ 100000) → tp.fab = s.fab ∧ tp.getF F.FAB_STATUS_WRITE_REJECT = 1))) ∧
  (∀ (s : State) (now k : Nat), s.phase = .up → s.fab.fannTick = some k → s.pace.edge + 500 * s.pace.tp ≤ now →
    let rep (p : Nat) : Option Nat := (s.fab.reports.find? fun e => e.1 == k && e.2.1 == p).map (·.2.2)
    ∃ t f, exec (.fannDeadline now) s = .next t ∧ t.fab.fannTick = none ∧ t.fab.newTp = 0 ∧
      t.fab.fanns = s.fab.fanns ++ [((k + 2) % 2 ^ 32, s.fab.newTp, f)] ∧
      (∀ p ∈ s.jobMembers, f ≤ (rep p).getD (tget nat0 s.fab.lastReport p)) ∧ t.events = s.events ∧ t.mem = s.mem) ∧
  (∀ (s : State) (now : Nat), s.phase = .up → s.fab.timedOut = true → ∃ t, exec (.barrierTimeout now) s = .next t ∧
    t.jobState = 3 ∧ t.fab.ops = [] ∧ t.fab.running = none ∧ t.fab.timedOut = false ∧ t.getF F.PACE_CTRL_JOB_LOCK = 0 ∧
    t.getF (F.FAB_JOB_LATE_MEMBERS 0) + 2 ^ 32 * t.getF (F.FAB_JOB_LATE_MEMBERS 1) = s.lateMembers) ∧
  ∀ (s : State) (w : List W64) (rest : List (List W64)), s.phase = .up → s.jobState = 2 → s.fab.ops = w :: rest → s.fab.running = none →
    let op := coOP w
    let r := s.jobRing
    let ended (t : State) : Prop := t.fab.ops = rest ∧ t.fab.running = none ∧ t.getF (rCQTAIL r) = (s.getF (rCQTAIL r) + 1) % 2 ^ 32
    ∀ c : Instr, (op = 1 ∧ c = .bcast) ∨ (op = 2 ∧ c = .allreduce) ∨ (op = 3 ∧ c = .halo) ∨
        ((op = 0 ∨ 4 ≤ op) ∧ c = .operationBarrier) →
      (∃ t, exec c s = .next t ∧ t.fab.opCount = s.fab.opCount + 1) ∧
      (∀ x, s.collectiveCheck w = some x → ∃ t, exec c s = .next t ∧ ended t) ∧
      (s.collectiveCheck w = none → coCOUNT w = 0 → op ≠ 4 → ∃ t, exec c s = .next t ∧ ended t) ∧
      (s.collectiveCheck w = none → op = 1 → coCOUNT w ≠ 0 → coROOT w ≠ s.fid → s.fab.parked = [] → ∃ t q, exec c s = .next t ∧
        t.fab.ops = s.fab.ops ∧ t.fab.running = some q ∧ q.words = w ∧ q.got = 0 ∧ t.mem = s.mem) ∧
      (s.collectiveCheck w = none → op = 4 → s.fab.parked = [] → s.fab.opBars = [] → s.others ≠ [] → ∃ t q, exec c s = .next t ∧
        t.fab.running = some q ∧ q.words = w ∧ t.mem = s.mem ∧
        ∀ p ∈ s.others, (s.flow p).down = false → ∃ m, m.typ = 2 ∧ m.arg = 2 ^ 31 + coOPID w ∧
          (m ∈ (t.flow p).waiting ∨ ∃ u ∈ (t.flow p).unacked, u.msg = m))

/-! ### Trust -/

/-- R392, R413 to R416, R418, R426, R427: a request whose header or arguments are ill-formed is refused with ILLEGAL_SHAPE, one
whose addresses lie outside what it may reach with LENGTH_BOUNDS, and a signed one whose signature fails with PERMISSION.
The others wait for the snapshot, but for HALLMARK, which is answered at once while the ticks are stopped. There a partition
is created or refused; one removed waits for its scrub; a fuse slot is revoked, but not the last that is usable; no fuse bit
is ever cleared. A scrub that completes leaves the range zero and the partition as if it had never been. An import whose
copy fails its check leaves no object; one that passes has the content key in a slot that was free. The model's own reading
enters in: when refusals show, free result words and the reasons (logs 83, 84, 85). -/
def Obligations.Mailbox : Prop :=
  (∀ (s : State) (port : Port), s.phase = .up →
    let a (n : Nat) : List Nat := s.mbBytes 0x40 n
    let x (n : Nat) : Nat := (a n).getD 0 0
    let z (n i m : Nat) : Bool := zeroBytes (((a n).drop i).take m)
    let rows : List (Instr × Nat × Nat × Bool × Bool × Bool) :=
      [(.partCreate port, 0x01, 12, false, decide (x 12 < 8) && z 12 2 2, true), (.partRemove port, 0x02, 1, false, true, true),
       (.bundleImport port, 0x10, 24, false, z 24 1 1 && z 24 4 4, s.mbRange (x 24) (le (a 24) 8 8) (le (a 24) 16 8)),
       (.bundleDrop port, 0x11, 4, false, z 4 1 1, true),
       (.hallmark port, 0x20, 48, false, z 48 1 7 && decide (x 48 < 8 ∨ x 48 = 0xFF),
        s.mbRange (x 48) (le (a 48) 8 8) (s.hallmarkLen (x 48) (le (a 48) 8 8))),
       (.fuseRevoke port, 0x30, 1, true, decide (x 1 < 4), true),
       (.fuseProgram port, 0x31, 36, true, decide (x 36 < 4) && z 36 1 3, true),
       (.fuseFloor port, 0x32, 1, true, decide (x 1 ≤ 64), true)]
    ∀ e ∈ rows,
      let (c, op, len, signed, shape, range) := e
      let about : Option Nat := if op = 0x32 then none else (a len)[0]?
      let head : Prop := leNat (s.mbBytes 2 2) = len ∧ zeroBytes (s.mbBytes 8 56) = true ∧ (signed = true ∨ s.mbBytes 1 1 = [0])
      let refused (r : Nat) : Prop := ∃ t, exec c s = .next t ∧ t.getF F.MB_STATUS_STATE = 3 ∧ t.getF F.MB_STATUS_REASON = r ∧
        t.events = s.events ∧ t.mem = s.mem ∧ t.parts = s.parts ∧ t.fuses = s.fuses
      (portHost port = false → exec c s = .next (s.denied port)) ∧
      (portHost port = true → (s.mbBytes 0 1).getD 0 0 = op →
        (s.getF F.MB_STATUS_STATE = 1 → exec c s = .next s) ∧
        (s.getF F.MB_STATUS_STATE ≠ 1 →
          (¬ head ∨ shape = false → refused rIllegalShape) ∧
          (head → shape = true → range = false → refused rLengthBounds) ∧
          (head → shape = true → range = true →
            (op ≠ 0x20 → ∃ t, exec c s = .next t ∧ t.mem = s.mem ∧ t.parts = s.parts ∧ t.fuses = s.fuses ∧
              (signed = true → s.signedOk len about = false → t.getF F.MB_STATUS_STATE = 3 ∧ t.getF F.MB_STATUS_REASON = rPermission ∧
                t.events = s.events) ∧
              (signed = false ∨ s.signedOk len about = true → t.getF F.MB_STATUS_STATE = 1 ∧ t.events = s.events ++ [.mbox op (a len)])) ∧
            (op = 0x20 → s.pace.ticking = true → ∃ t, exec c s = .next t ∧ t.getF F.MB_STATUS_STATE = 1 ∧
              t.assay.asked = s.assay.asked ++ [a len] ∧ t.mem = s.mem) ∧
            (op = 0x20 → s.pace.ticking = false → x len = 0xFF → ∃ t, exec c s = .next t ∧ t.getF F.MB_STATUS_STATE = 2 ∧
              let b := s.deviceHallmark (((a len).drop 16).take 32)
              ∀ i, i < b.length → t.ld8 (le (a len) 8 8 + i) = b.getD i 0 % 256))))) ∧
  (∀ (s : State) (k now n : Nat) (a : List Nat), s.phase = .up →
    let create := s.applyEv k now (.mbox 0x01 a)
    let remove := s.applyEv k now (.mbox 0x02 [n])
    let revoke := s.applyEv k now (.mbox 0x30 [n])
    (s.createRefusal a = none → create.getF F.MB_STATUS_STATE = 2 ∧ (create.part (a.getD 0 0)).live = true ∧
      (create.part (a.getD 0 0)).teams = a.getD 1 0 ∧ ∀ q, q ≠ a.getD 0 0 → create.part q = s.part q) ∧
    (∀ r, r < 256 → s.createRefusal a = some r → create.getF F.MB_STATUS_STATE = 3 ∧ create.getF F.MB_STATUS_REASON = r ∧
      create.parts = s.parts) ∧
    ((s.part n).live = false → remove.parts = s.parts ∧ remove.getF F.MB_STATUS_REASON = rPermission) ∧
    ((s.part n).live = true → (remove.part n).live = false ∧ (remove.part n).scrub = true ∧ remove.getF F.MB_STATUS_STATE = 2) ∧
    (n < 4 → s.liveFuses.slotUsable n = true → (∀ m, m ≠ n → s.liveFuses.slotUsable m = false) → revoke.fuses = s.fuses ∧
      revoke.getF F.MB_STATUS_REASON = rPermission) ∧
    (∀ m, n < 4 → m ≠ n → s.liveFuses.slotUsable m = true → revoke.liveFuses.revoked n = true ∧ revoke.aon.wake = none) ∧
    ∀ op ∈ [0x30, 0x31, 0x32], ∀ j,
      let t := s.applyEv k now (.mbox op a)
      t.fuseByte j = s.fuseByte j ∧ Nat.lor (s.liveFuses.fuseByte j) (t.liveFuses.fuseByte j) = t.liveFuses.fuseByte j) ∧
  (∀ (s : State) (p : Nat), s.phase = .up → p < 8 → (s.part p).scrub = true →
    let lo := (s.part p).gddrBase * 0x100000
    let hi := lo + (s.part p).gddrSize * 0x100000
    ∃ t, exec (.partScrubComplete p) s = .next t ∧ t.part p = {} ∧ (∀ q, q ≠ p → t.part q = s.part q) ∧
      ∀ y, t.ld8 y = if lo ≤ y ∧ y < hi then 0 else s.ld8 y) ∧
  ∀ (s : State) (m : Import), s.phase = .up → s.assay.copying = some m → m.ok = false →
    (s.openBundle m = none → ∃ t, exec .bundleCopyComplete s = .next t ∧ t.obj m.part m.obj = {} ∧ t.assay.copying = none ∧
      t.keys = s.keys ∧ t.getF F.MB_STATUS_STATE = 3 ∧ t.getF F.MB_STATUS_REASON = rIntegrity) ∧
    ∀ b i, s.openBundle m = some b → i < 64 → (s.keySlot i).live = false → ∃ t, exec .bundleCopyComplete s = .next t ∧ t.events = s.events ∧
      (Config.shake256 64 (b.take (s.obj m.part m.obj).size) ≠ le m.hdr 0x30 64 → t.obj m.part m.obj = {} ∧ t.assay.copying = none ∧
        t.getF F.MB_STATUS_STATE = 3 ∧ t.getF F.MB_STATUS_REASON = rIntegrity) ∧
      (Config.shake256 64 (b.take (s.obj m.part m.obj).size) = le m.hdr 0x30 64 → (t.obj m.part m.obj).filled = true ∧
        t.assay.copying = some { m with ok := true } ∧ ∃ j, (t.obj m.part m.obj).keySlot = j ∧ (s.keySlot j).live = false ∧
          (t.keySlot j).live = true ∧ (t.keySlot j).key = m.key)

/-- R421, R422: SPDM over each path starts with GET_VERSION, then GET_CAPABILITIES, then NEGOTIATE_ALGORITHMS; a request before
its time, for a certificate slot other than 0, or with what does not verify is answered with an error. An established
session comes from KEY_EXCHANGE and FINISH, and ends with END_SESSION. No request changes anything but the answer, the
path's own connection and the count of free values. The model's own reading enters in: codes and order of messages, and free
identifiers (logs 6, 7, 86). -/
def Obligations.Attestation : Prop :=
  ∀ (s : State) (f slot nonce idx sid : Nat) (ok : Bool), s.phase = .up → s.getF F.HQE_STATUS_DRT_READY = 1 → f < 65 →
    let x := s.spdmOf f
    let run (c : Instr) (y : Spdm) (code : Nat) (data : List Nat) : Prop := ∃ t, exec c s = .next t ∧ t.spdmOf f = y ∧
      (f = 64 → t.mgmt.answer = (code, data)) ∧ (f ≠ 64 → t.doe = (f, code, data)) ∧ (∀ g, g ≠ f → t.spdmOf g = s.spdmOf g) ∧
      t.regs = s.regs ∧ t.mem = s.mem ∧ t.events = s.events ∧ t.tdis = s.tdis ∧ t.ide = s.ide
    let bad (c : Instr) : Prop := run c x 0x7F []
    run (.getVersion f) { stage := 1, sessions := [] } 0x04 [0x13] ∧
    (1 ≤ x.stage → run (.getCapabilities f) { x with stage := max x.stage 2 } 0x61 []) ∧
    (2 ≤ x.stage → run (.negotiateAlgorithms f true) { x with stage := 3 } 0x63 [] ∧ bad (.negotiateAlgorithms f false)) ∧
    (x.stage < 1 → bad (.getCapabilities f)) ∧ (x.stage < 2 → bad (.negotiateAlgorithms f ok)) ∧
    (x.stage < 3 → ∀ c ∈ [Instr.getDigests f, .getCertificate f slot, .spdmChallenge f slot nonce, .getMeasurements f idx nonce,
      .keyExchange f slot nonce, .spdmFinish f sid ok, .endSession f sid], bad c) ∧
    (3 ≤ x.stage →
      run (.getDigests f) x 0x01 (1 :: leBytes 64 (Config.sha3 s.cert)) ∧
      run (.getCertificate f 0) x 0x02 s.cert ∧
      run (.spdmChallenge f 0 nonce) x 0x03 (s.sign (Config.transcript 3 f nonce)) ∧
      (slot ≠ 0 → ∀ c ∈ [Instr.getCertificate f slot, .spdmChallenge f slot nonce, .keyExchange f slot nonce], bad c) ∧
      run (.getMeasurements f 8 nonce) x 0x60 (s.deviceHallmark (leBytes 32 nonce)) ∧
      (∀ p, p < 8 → (s.part p).live = true → (f = 0 ∨ f = 64 ∨ s.vfPart f = some p) →
        run (.getMeasurements f (0x10 + p) nonce) x 0x60 (s.partHallmark p (leBytes 32 nonce))) ∧
      (∀ p, p < 8 → (s.part p).live = false ∨ (f ≠ 0 ∧ f ≠ 64 ∧ s.vfPart f ≠ some p) → bad (.getMeasurements f (0x10 + p) nonce)) ∧
      (idx = 0 ∨ (9 ≤ idx ∧ idx < 0x10) ∨ 0x18 ≤ idx → bad (.getMeasurements f idx nonce)) ∧
      (∃ id, id < 65536 ∧ run (.keyExchange f 0 nonce) { x with sessions := x.sessions ++ [(id, false)] } 0x64
        (leBytes 2 id ++ s.sign (Config.transcript 0x64 f nonce))) ∧
      ((sid, false) ∈ x.sessions → run (.spdmFinish f sid true)
        { x with sessions := x.sessions.map fun e => if e = (sid, false) then (sid, true) else e } 0x65 []) ∧
      (ok = false ∨ (sid, false) ∉ x.sessions → bad (.spdmFinish f sid ok)) ∧
      ((sid, true) ∈ x.sessions → run (.endSession f sid) { x with sessions := x.sessions.filter fun e => e.1 ≠ sid } 0x6C []) ∧
      ((sid, true) ∉ x.sessions → bad (.endSession f sid)))

/-- R423 to R425: IDE_KM and TDISP run within an established session, IDE_KM on the PF's path alone. A key set in use is not
refreshed; a set goes into use with its key and while the other of its direction is not; a selective stream that stops takes
the locked and running TDIs that it covers to ERROR at the snapshot. LOCK, START with the nonce of the LOCK, and STOP move a
TDI at the snapshot, where LOCK is judged. The model's own reading enters in: codes and order of messages, and that LOCK is
judged at the snapshot (logs 85, 86). -/
def Obligations.IdeAndTdisp : Prop :=
  (∀ (s : State) (f sid k kset dir sub key lo hi v nonce : Nat), s.phase = .up → s.getF F.HQE_STATUS_DRT_READY = 1 → f < 64 →
    3 ≤ (s.spdmOf f).stage →
    let run (c : Instr) (data : List Nat) (evs : List Ev) : Prop := ∃ t, exec c s = .next t ∧ t.doe = (f, 0x7E, data) ∧
      t.events = s.events ++ evs ∧ t.ide = s.ide ∧ t.tdis = s.tdis ∧ t.mem = s.mem ∧ t.regs = s.regs
    let bad (c : Instr) : Prop := ∃ t, exec c s = .next t ∧ t.doe = (f, 0x7F, []) ∧ t.events = s.events ∧ t.ide = s.ide ∧
      t.tdis = s.tdis ∧ t.mem = s.mem ∧ t.regs = s.regs
    let x := s.ideOf k
    let i := ideKey kset dir sub
    let ideRows := [Instr.ideQuery f sid, .keyProg f sid k kset dir sub key lo hi, .kSetGo f sid k kset dir sub, .kSetStop f sid k kset dir sub]
    let tdiRows := [Instr.getTdispVersion f sid v, .getTdispCapabilities f sid v, .getDeviceInterfaceState f sid v,
      .getDeviceInterfaceReport f sid v, .lockInterfaceRequest f sid v, .startInterfaceRequest f sid v nonce, .stopInterfaceRequest f sid v]
    ((sid, true) ∉ (s.spdmOf f).sessions → (∀ c ∈ ideRows, bad c) ∧ ∀ c ∈ tdiRows, bad c) ∧
    (f ≠ 0 → ∀ c ∈ ideRows, bad c) ∧ (tdispPath f v = false → ∀ c ∈ tdiRows, bad c) ∧
    ((sid, true) ∈ (s.spdmOf f).sessions →
      (f = 0 → run (.ideQuery f sid) [1, 16] []) ∧
      (f = 0 → ideOkKey k kset dir sub = true →
        (i ∈ x.use → bad (.keyProg f sid k kset dir sub key lo hi)) ∧
        (i ∉ x.use → ∃ t, exec (.keyProg f sid k kset dir sub key lo hi) s = .next t ∧ t.doe = (f, 0x7E, [0]) ∧
          tget nat0 (t.ideOf k).keys i = key + 1 ∧ (t.ideOf k).use = x.use ∧ (∀ j, j ≠ i → tget nat0 (t.ideOf k).keys j = tget nat0 x.keys j) ∧
          (k < 16 → (t.ideOf k).lo = lo ∧ (t.ideOf k).hi = hi) ∧ ∀ q, q ≠ k → t.ideOf q = s.ideOf q) ∧
        (tget nat0 x.keys i = 0 ∨ ideKey (1 - kset) dir sub ∈ x.use → bad (.kSetGo f sid k kset dir sub)) ∧
        (tget nat0 x.keys i ≠ 0 → ideKey (1 - kset) dir sub ∉ x.use → ∃ t, exec (.kSetGo f sid k kset dir sub) s = .next t ∧
          t.doe = (f, 0x7E, [0]) ∧ (∀ j, j ∈ (t.ideOf k).use ↔ (j = i ∨ j ∈ x.use)) ∧ (t.ideOf k).keys = x.keys ∧ t.events = s.events ∧
          ∀ q, q ≠ k → t.ideOf q = s.ideOf q) ∧
        (∃ t, exec (.kSetStop f sid k kset dir sub) s = .next t ∧ t.doe = (f, 0x7E, [0]) ∧
          (∀ j, j ∈ (t.ideOf k).use ↔ (j ≠ i ∧ j ∈ x.use)) ∧ tget nat0 (t.ideOf k).keys i = 0 ∧ t.tdis = s.tdis ∧
          (x.use = [i] → k < 16 → ∀ w, w < 64 → x.lo ≤ w → w ≤ x.hi → (tget tdi0 s.tdis w = 1 ∨ tget tdi0 s.tdis w = 2) →
            .tdi w 3 ∈ t.events))) ∧
      (tdispPath f v = true →
        run (.getTdispVersion f sid v) [0x10] [] ∧ run (.getTdispCapabilities f sid v) [] [] ∧
        run (.getDeviceInterfaceState f sid v) [tget tdi0 s.tdis v] [] ∧ run (.stopInterfaceRequest f sid v) [0] [.tdi v 0] ∧
        (tget tdi0 s.tdis v = 1 ∨ tget tdi0 s.tdis v = 2 → run (.getDeviceInterfaceReport f sid v) (s.tdiReport v) []) ∧
        (tget tdi0 s.tdis v = 0 ∨ tget tdi0 s.tdis v = 3 → bad (.getDeviceInterfaceReport f sid v)) ∧
        (tget tdi0 s.tdis v = 0 → exec (.lockInterfaceRequest f sid v) s = .next (s.latch (.tdi v 1))) ∧
        (tget tdi0 s.tdis v ≠ 0 → bad (.lockInterfaceRequest f sid v)) ∧
        (tget tdi0 s.tdis v = 1 → tget nat0 s.tdiNonce v = nonce → run (.startInterfaceRequest f sid v nonce) [0] [.tdi v 2]) ∧
        (tget tdi0 s.tdis v ≠ 1 ∨ tget nat0 s.tdiNonce v ≠ nonce → bad (.startInterfaceRequest f sid v nonce))))) ∧
  ∀ (s : State) (k now v : Nat), s.phase = .up →
    let goes (st : Nat) : Nat := tget tdi0 (s.applyEv k now (.tdi v st)).tdis v
    let now_ := tget tdi0 s.tdis v
    (now_ = 0 → s.lockRefused v = false → goes 1 = 1) ∧ (now_ ≠ 0 ∨ s.lockRefused v = true → goes 1 = now_) ∧
    (now_ = 1 → goes 2 = 2) ∧ (now_ ≠ 1 → goes 2 = now_) ∧ goes 0 = 0 ∧ goes 3 = 3 ∧
    ∀ st w, w ≠ v → tget tdi0 (s.applyEv k now (.tdi v st)).tdis w = tget tdi0 s.tdis w

/-! ### Management -/

/-- R478 to R482, R497: before the endpoint is offered what a command needs, it answers ERROR_NOT_READY and does nothing else.
Each query answers what it asks; a sensor reads the value of the last refresh, which takes every source at once and sends
its events to the receiver. An effecter in range waits for the snapshot as a write of management; one out of range changes
nothing. A reset, deep sleep and waking happen at once. The model's own reading enters in: completion codes, and which
sensors are unavailable (logs 91, 92). -/
def Obligations.Management : Prop :=
  ∀ (s : State) (eid typ handle id v : Nat), s.phase ≠ .coldReset →
    let said (t : State) (cc : Nat) (data : List Nat) : Prop := t.mgmt.answer = (cc, data)
    let run (c : Instr) (cc : Nat) (data : List Nat) (evs : List Ev) : Prop := ∃ t, exec c s = .next t ∧ said t cc data ∧
      t.events = s.events ++ evs ∧ t.mem = s.mem ∧ t.regs = s.regs ∧ t.phase = s.phase ∧
      { t.mgmt with answer := s.mgmt.answer } = s.mgmt
    (s.phase ≠ .up → ∀ c ∈ [Instr.getPdr handle, .setEventReceiver eid, .gaitEffecter v, .plSustEffecter v, .plFastEffecter v,
      .windowEffecter v, .hostLimitEffecter v, .resetEffecter, .domainResetEffecter v, .sleepEffecter], run c 0x04 [] []) ∧
    (8 ≤ eid → eid ≤ 254 → ∃ t, exec (.setEndpointId eid) s = .next t ∧ said t 0 [eid] ∧ t.mgmt.eid = eid ∧ t.mem = s.mem ∧ t.regs = s.regs) ∧
    (eid < 8 ∨ 254 < eid → run (.setEndpointId eid) 2 [] []) ∧
    run .getEndpointId 0 [s.mgmt.eid] [] ∧ (∃ u : List Nat, u.length = 16 ∧ run .getEndpointUuid 0 u []) ∧
    run .getMessageTypeSupport 0 [0, 1, 5] [] ∧
    (typ = 0 ∨ typ = 0xFF → run (.getMctpVersionSupport typ) 0 [1, 3] []) ∧
    (typ = 1 ∨ typ = 5 → ∃ w, run (.getMctpVersionSupport typ) 0 [w] []) ∧
    (typ ≠ 0 → typ ≠ 1 → typ ≠ 5 → typ ≠ 0xFF → run (.getMctpVersionSupport typ) 0x80 [] []) ∧
    (s.phase = .up ∨ id = 40 ∨ id = 44 →
      (id = 0 ∨ 44 < id → run (.sensorReading id) 0x80 [] []) ∧
      (1 ≤ id → id ≤ 44 → tget nat0 s.mgmt.sensors id = 0 → run (.sensorReading id) 0 [2] []) ∧
      (1 ≤ id → id ≤ 44 → ∀ w, tget nat0 s.mgmt.sensors id = w + 1 → run (.sensorReading id) 0 [0, w] [])) ∧
    (∃ t, exec .sensorRefresh s = .next t ∧ (∀ i, 1 ≤ i → i ≤ 44 → tget nat0 t.mgmt.sensors i = s.sensorNow i) ∧
      (s.mgmt.receiver = none → t.mgmt.sent = s.mgmt.sent) ∧
      (s.mgmt.receiver ≠ none → ∀ i ∈ [1, 39, 40, 42, 44], happens i (tget nat0 s.mgmt.seen i) (s.eventState i) = true →
        (i, s.eventState i) ∈ t.mgmt.sent) ∧ t.mem = s.mem ∧ t.regs = s.regs ∧ t.events = s.events) ∧
    (s.phase = .up →
      run (.getPdr handle) 0 (Config.pdr s.variant handle) [] ∧
      (∃ t, exec (.setEventReceiver eid) s = .next t ∧ said t 0 [] ∧ t.mgmt.receiver = some eid ∧ t.mem = s.mem ∧ t.regs = s.regs) ∧
      (∀ e ∈ [(Instr.gaitEffecter v, 0x20000, 0, 3), (.plSustEffecter v, 0x20008, 60, 310), (.plFastEffecter v, 0x2000C, 60, 372),
          (.windowEffecter v, 0x20010, 1, 60), (.hostLimitEffecter v, 0x20014, 400, 1150)],
        (e.2.2.1 ≤ v → v ≤ e.2.2.2 → (e.2.1 = 0x20000 → v ≠ 3 ∨ s.getF F.REIN_CAP_COOL_B = 1) →
          run e.1 0 [] [.mgmtWrite e.2.1 (BitVec.ofNat 32 v)]) ∧
        (v < e.2.2.1 ∨ e.2.2.2 < v → run e.1 2 [] [])) ∧
      (v = 3 → s.getF F.REIN_CAP_COOL_B = 0 → ∃ t, exec (.gaitEffecter v) s = .next t ∧ said t 2 [] ∧ t.events = s.events ∧
        t.getF F.REIN_STATUS_GAIT_REJECT = 1 ∧ t.getF F.REIN_GAIT_GAIT = s.getF F.REIN_GAIT_GAIT) ∧
      (∃ t, exec .resetEffecter s = .next t ∧ said t 0 [] ∧ t.phase = .coldReset ∧ t.mem = [] ∧ t.cores = [] ∧ t.jobs = []) ∧
      (v < 2048 → run (.domainResetEffecter v) 0 [] [.rasCmd 1 (v / 256) (v % 256)]) ∧
      (2048 ≤ v → run (.domainResetEffecter v) 2 [] []) ∧
      (s.syncState = 0 → ∃ t, exec .sleepEffecter s = .next t ∧ said t 0 [] ∧ t.phase = .deepSleep ∧ t.mem = [] ∧ t.cores = []) ∧
      (s.syncState ≠ 0 → ∃ t, exec .sleepEffecter s = .next t ∧ t.phase = .up ∧ t.getF F.REIN_STATUS_WRITE_REJECT = 1 ∧ t.mem = s.mem) ∧
      (∀ w : W32, s.events = [.mgmtWrite 0x20014 w] → run (.getEffecterValue 5) 0 [0, w.toNat, (s.rd 0x20014).toNat] []) ∧
      (s.events = [] → run (.getEffecterValue 5) 0 [1, (s.rd 0x20014).toNat, (s.rd 0x20014).toNat] []) ∧
      (id = 0 ∨ 10 < id → run (.getEffecterValue id) 0x80 [] []) ∧
      (v < 2 ^ 32 → run (.wakeTimerEffecter v) 0 [] [.mgmtWrite 0x20044 (BitVec.ofNat 32 v)]) ∧ run .wakeEffecter 0 [] []) ∧
    (s.phase = .deepSleep → (∃ t, exec .wakeEffecter s = .next t ∧ said t 0 [] ∧ t.phase = .coldReset) ∧
      (v < 2 ^ 32 → ∃ t, exec (.wakeTimerEffecter v) s = .next t ∧ said t 0 [] ∧ (t.rd 0x20044).toNat = v ∧ ∀ o, o ≠ 0x20044 → t.rd o = s.rd o))

/-- R483 to R487: an update runs through its stages in order, and a request out of its stage is answered with a state error and
changes nothing. Bytes of a component that was offered go into the set that is not active, or in recovery into the stage 1
window, and nowhere else. The live update of the DRT is loaded, moved, committed or aborted; a command that its state does
not allow sets WRITE_REJECT; at the snapshot the new DRT is the running one, or a partition has moved. The model's own
reading enters in: completion codes, and where images stand (logs 91, 93). -/
def Obligations.FirmwareUpdate : Prop :=
  (∀ (s : State) (c off : Nat) (h b : List Nat) (sc : Bool), s.phase = .up ∨ s.phase = .recovery →
    let u := s.mgmt.upd
    let run (i : Instr) (cc : Nat) (data : List Nat) (x : Update) : Prop := ∃ t, exec i s = .next t ∧ t.mgmt.answer = (cc, data) ∧
      t.mgmt.upd = x ∧ t.mem = s.mem ∧ t.regs = s.regs ∧ t.flash = s.flash ∧ t.assay = s.assay
    (u.stage = 0 → s.liveBusy = false → run .requestUpdate 0 [] { stage := 1 }) ∧
    (u.stage ≠ 0 ∨ s.liveBusy = true → run .requestUpdate 0x81 [] u) ∧
    (u.stage = 0 → ∀ i ∈ [Instr.passComponentTable c h, .updateComponent c h, .firmwareTransfer c off b, .verifyComplete, .applyComplete,
      .activateFirmware sc, .updateCancel], run i 0x80 [] u) ∧
    (u.stage = 1 ∨ u.stage = 2 → s.compOk c h = true → run (.passComponentTable c h) 0 [0] { u with stage := 2 }) ∧
    (u.stage = 1 ∨ u.stage = 2 → s.compOk c h = false → run (.passComponentTable c h) 0 [1] u) ∧
    (u.stage = 2 ∨ u.stage = 3 → s.compOk c h = true → run (.updateComponent c h) 0 [0] { stage := 3, comps := u.comps.filter (fun e => e.1 ≠ c) ++ [(c, 0)] }) ∧
    (u.stage = 3 → 512 < b.length → run (.firmwareTransfer c off b) 0x83 [] u) ∧
    (u.stage = 3 → b.length ≤ 512 → c ∉ u.comps.map (·.1) → run (.firmwareTransfer c off b) 0x84 [] u) ∧
    (u.stage = 3 → b.length ≤ 512 → c ∈ u.comps.map (·.1) → compSize c < off + b.length → run (.firmwareTransfer c off b) 0x82 [] u) ∧
    (u.stage = 3 → b.length ≤ 512 → c ∈ u.comps.map (·.1) → off + b.length ≤ compSize c →
      let base := setBase s.spareSet + updOffs.getD (compOrder.idxOf c) 0 + off
      ∃ t, exec (.firmwareTransfer c off b) s = .next t ∧ t.mgmt.answer = (0, []) ∧ t.mem = s.mem ∧ t.regs = s.regs ∧
        (s.awaiting = false → t.aon.wake = none ∧ t.assay = s.assay ∧ ∀ a, tget flash0 t.flash a =
          if base ≤ a ∧ a < base + b.length then BitVec.ofNat 8 (b.getD (a - base) 0) else tget flash0 s.flash a) ∧
        (s.awaiting = true → t.flash = s.flash ∧ ∀ a, tget win0 t.assay.window a =
          if off ≤ a ∧ a < off + b.length then BitVec.ofNat 8 (b.getD (a - off) 0) else tget win0 s.assay.window a)) ∧
    (u.stage = 3 → s.awaiting = false → ∃ t, exec .verifyComplete s = .next t ∧ t.mem = s.mem ∧ t.regs = s.regs ∧
      ((t.mgmt.answer = (0, []) ∧ t.mgmt.upd = { u with stage := 4 } ∧ t.setPasses = true) ∨
       (t.mgmt.answer = (1, []) ∧ t.mgmt.upd = {}))) ∧
    (u.stage = 4 → run .applyComplete 0 [] { u with stage := 5 }) ∧
    (u.stage = 3 → ∀ i ∈ [Instr.passComponentTable c h, .applyComplete, .activateFirmware sc], run i 0x84 [] u) ∧
    (u.stage = 5 → ∃ t, exec (.activateFirmware sc) s = .next t ∧ t.mgmt.answer = (0, []) ∧ t.mgmt.upd = {} ∧
      (sc = false → t.mem = s.mem ∧ t.aon.wake = none ∧ (s.phase = .up → t.regs = s.regs) ∧
        (s.phase = .recovery → t.getF F.ASSAY_RECOV_STATUS_STATE = 4))) ∧
    (1 ≤ u.stage → u.stage ≤ 5 → run .updateCancel 0 [] {})) ∧
  (∀ (s : State) (port : Port) (p : Nat), s.phase = .up → portHost port = true →
    let st (t : State) : Nat := t.getF F.HOSTCORE_LIVE_STATUS_STATE
    let moved (t : State) : Nat := t.getF F.HOSTCORE_LIVE_STATUS_MOVED
    let rejected (c : Instr) : Prop := ∃ t, exec c s = .next t ∧ t.getF F.HOSTCORE_LIVE_STATUS_WRITE_REJECT = 1 ∧ st t = st s ∧
      t.hcore = s.hcore ∧ t.mem = s.mem ∧ t.events = s.events
    (s.mgmt.upd.stage < 4 ∨ 2 ∉ s.mgmt.upd.comps.map (·.1) ∨ s.liveBusy = true → rejected (.liveLoad port)) ∧
    (4 ≤ s.mgmt.upd.stage → 2 ∈ s.mgmt.upd.comps.map (·.1) → s.liveBusy = false → ∃ t, exec (.liveLoad port) s = .next t ∧
      ((st t = 1 ∧ t.events = s.events ++ [.live 1 0] ∧ moved t = 0 ∧ t.hcore.next ≠ none) ∨
       (st t = 3 ∧ t.events = s.events ∧ t.mem = s.mem ∧ t.hcore = s.hcore))) ∧
    (st s ≠ 2 ∨ 8 ≤ p ∨ (s.part p).live = false → rejected (.liveMove port p)) ∧
    (st s = 2 → p < 8 → (s.part p).live = true → exec (.liveMove port p) s = .next (s.latch (.live 2 p))) ∧
    (st s = 2 → (∀ q, q < 8 → (s.part q).live = true → moved s / 2 ^ q % 2 = 1) → ∃ t, exec (.liveCommit port) s = .next t ∧
      st t = 0 ∧ moved t = 0 ∧ t.hcore.next = none ∧ t.aon.wake = none ∧ t.drt = s.drt ∧ t.mem = s.mem) ∧
    (st s ≠ 2 ∨ (∃ q, q < 8 ∧ (s.part q).live = true ∧ moved s / 2 ^ q % 2 = 0) → rejected (.liveCommit port)) ∧
    (s.liveBusy = false ∨ moved s ≠ 0 → rejected (.liveAbort port)) ∧
    (s.assay.images.length = 4 → moved s = 0 →
      (st s = 1 → ∃ t, exec (.liveAbort port) s = .next t ∧ st t = 0 ∧ t.drt = s.drt ∧ t.hcore.next = none) ∧
      (∀ old, st s = 2 → s.hcore.next = some old → ∃ t, exec (.liveAbort port) s = .next t ∧ st t = 0 ∧ t.drt = old ∧ t.hcore.next = none))) ∧
  ∀ (s : State) (k now p : Nat) (im : Image), s.phase = .up → s.assay.images.length = 4 → p < 8 →
    let t := s.applyEv k now (.live 1 0)
    let u := s.applyEv k now (.live 2 p)
    (s.getF F.HOSTCORE_LIVE_STATUS_STATE = 1 → s.hcore.next = some im → t.drt = im ∧ t.hcore.next = some s.drt ∧
      t.getF F.HOSTCORE_LIVE_STATUS_STATE = 2) ∧
    (s.getF F.HOSTCORE_LIVE_STATUS_STATE = 2 → u.getF F.HOSTCORE_LIVE_STATUS_MOVED / 2 ^ p % 2 = 1 ∧ u.drt = s.drt)

/-! ### Debug -/

/-- R488 to R493, R515: an instruction that enters the test access port replaces the one before it, and its data register is
shifted out; DBGACC attaches and any other instruction after it detaches, each recorded at the snapshot. An access that is
not aligned or reaches nothing ends in error, one that reaches what no partition holds is denied, and neither changes
memory; one within a partition's range reads or writes the word. A session of the PF opens and closes at the snapshot. A
core that a session reaches halts, resumes past a BRK, or steps; a command for one that none reaches is rejected, and
a Team that is not ON holds what concerns it until it is awake. The
model's own reading enters in: who debugs, the TAP after a reset, and the statuses of DBGACC (logs 87, 88, 89, 90). -/
def Obligations.JtagAndDebug : Prop :=
  (∀ (s : State) (code : Nat) (pins cells : List Bool), s.phase = .up ∨ s.phase = .halted ∨ s.phase = .recovery →
    let run (c : Instr) (ir dr : Nat) (cl : List Bool) : Prop := ∃ t, exec c s = .next t ∧ t.jtag.ir = ir ∧ t.jtag.dr = dr ∧ t.jtag.cells = cl ∧
      t.mem = s.mem ∧ t.cores = s.cores ∧ (s.jtag.ir ≠ 0x10 → t.regs = s.regs ∧ t.events = s.events) ∧
      (s.jtag.ir = 0x10 → t.getF F.DBG_SESSION_STATUS_JTAG_ATTACHED = 0 ∧ t.events = s.events ++ [.jtagDetach])
    (code % 256 ∉ [0x01, 0x02, 0x03, 0x04, 0x05, 0x10] → run (.jtagBypass code) (code % 256) 0 s.jtag.cells) ∧
    run .jtagIdcode 0x01 0x10C0756B s.jtag.cells ∧ run (.jtagSamplePreload pins cells) 0x02 (cellBits pins) cells ∧
    run (.jtagExtest pins cells) 0x03 (cellBits pins) cells ∧ run .jtagClamp 0x04 0 s.jtag.cells ∧
    run .jtagHighz 0x05 0 s.jtag.cells ∧ run .tapReset 0x01 0 s.jtag.cells ∧
    (s.jtag.ir = 0x10 → run .jtagDetach 0xFF 0 s.jtag.cells) ∧
    ∃ t, exec .jtagAttach s = .next t ∧ t.jtag = { s.jtag with ir := 0x10 } ∧ t.mem = s.mem ∧ t.cores = s.cores ∧
      (s.jtag.ir ≠ 0x10 → t.getF F.DBG_SESSION_STATUS_JTAG_ATTACHED = 1 ∧ t.getF F.DBG_SESSION_STATUS_JTAG_EN = 1 ∧
        t.events = s.events ++ [.jtagAttach])) ∧
  (∀ (s : State) (a p : Nat) (w : W32), s.phase = .up → s.jtag.ir = 0x10 → a < 2 ^ 48 →
    let both := [Instr.dbgaccRead a, .dbgaccWrite a w]
    let fails (c : Instr) (st : Nat) : Prop := ∃ t, exec c s = .next t ∧ t.jtag = { s.jtag with addr := a, data := 0, status := st, waits := none } ∧
      t.mem = s.mem ∧ t.regs = s.regs ∧ t.cores = s.cores
    let off := a - 0x014000000000
    (a % 4 ≠ 0 → ∀ c ∈ both, fails c 3) ∧
    (a % 4 = 0 → 0x800000000000 ≤ a → ∀ c ∈ both, fails c 2) ∧
    (a % 4 = 0 → a < 0x000800000000 → s.gddrTop ≤ a → ∀ c ∈ both, fails c 3) ∧
    (a % 4 = 0 → a < s.gddrTop → s.pairOk (gddrPair a) = true → (∀ q, q < 8 → s.inRange q a 4 = false) → ∀ c ∈ both, fails c 2) ∧
    (a % 4 = 0 → a < s.gddrTop → s.pairOk (gddrPair a) = true → p < 8 → s.inRange p a 4 = true → s.ueHit a 4 = false →
      (∃ t, exec (.dbgaccRead a) s = .next t ∧ t.jtag.data = s.ldN a 4 ∧ t.jtag.status = 0 ∧ t.mem = s.mem ∧ t.regs = s.regs) ∧
      ∃ t, exec (.dbgaccWrite a w) s = .next t ∧ t.ldN a 4 = w.toNat ∧ t.jtag.status = 0 ∧ t.regs = s.regs ∧
        ∀ y, y < a ∨ a + 4 ≤ y → t.ld8 y = s.ld8 y) ∧
    (a % 4 = 0 → 0x014000000000 ≤ a → off < 0x4000000 →
      (s.accGated off none = none → ∃ t, exec (.dbgaccRead a) s = .next t ∧ t.jtag.data = (s.cfgShow off).toNat ∧ t.jtag.status = 0 ∧
        t.mem = s.mem) ∧
      (∀ q, s.accGated off none = some q → ∃ t, exec (.dbgaccRead a) s = .next t ∧ t.jtag.status = 1 ∧ t.jtag.waits = some (a, none) ∧
        (t.team q).heldReq = true ∧ t.regs = s.regs ∧ t.mem = s.mem) ∧
      (debugReg off = none → fails (.dbgaccWrite a w) 2))) ∧
  (∀ (s : State) (port : Port) (scope : Nat), s.phase = .up →
    exec (.openSession port scope) s = .next (if port = .pf then s.latch (.pfOpen (scope % 256)) else s.denied port) ∧
    exec (.closeSession port) s = .next (if port = .pf then s.latch .pfClose else s.denied port)) ∧
  (∀ (s : State) (k now scope : Nat), s.phase = .up → scope < 256 →
    let attach := s.applyEv k now .jtagAttach
    let detach := s.applyEv k now .jtagDetach
    let opened := s.applyEv k now (.pfOpen scope)
    let closed := s.applyEv k now .pfClose
    (attach.getF F.TRUST_DBG_JTAG_COUNT = min (s.getF F.TRUST_DBG_JTAG_COUNT + 1) (2 ^ 32 - 1) ∧ ∀ p, p < 8 → (s.part p).live = true →
      (attach.part p).dbgSessions = (s.part p).dbgSessions + 1 ∧ attach.getF F.DBG_SESSION_STATUS_REACHED / 2 ^ p % 2 = 1) ∧
    (s.getF F.DBG_SESSION_STATUS_PF_OPEN = 0 → s.jtag.ir ≠ 0x10 → ∀ n q, s.slotOf n = some q → (detach.core q).stopped = false) ∧
    (s.getF F.DBG_SESSION_STATUS_PF_OPEN = 0 → opened.getF F.DBG_SESSION_STATUS_PF_OPEN = 1 ∧
      opened.getF F.DBG_SESSION_STATUS_PF_SCOPE = scope ∧ opened.getF F.TRUST_DBG_PF_COUNT = min (s.getF F.TRUST_DBG_PF_COUNT + 1) (2 ^ 32 - 1)) ∧
    (s.getF F.DBG_SESSION_STATUS_PF_OPEN = 1 → opened.getF F.DBG_STATUS_CMD_REJECT = 1 ∧
      opened.getF F.DBG_SESSION_STATUS_PF_SCOPE = s.getF F.DBG_SESSION_STATUS_PF_SCOPE ∧ closed.getF F.DBG_SESSION_STATUS_PF_OPEN = 0 ∧
      closed.getF F.DBG_SESSION_STATUS_PF_SCOPE = 0)) ∧
  ∀ (s : State) (n k : Nat), Serves s n k →
    let c := s.core k
    let rows := [Instr.debugHalt .pf n, .resumeCore .pf n, .stepCore .pf n]
    let gone (t : State) (step : Bool) : Prop := (t.core k).stopped = false ∧ (t.core k).stepping = step ∧
      (t.core k).pc = (if s.getF (F.DBG_CORE_STATUS_CAUSE k) = 1 then c.pc + 1 else c.pc) ∧ (t.core k).run = c.run ∧
      (t.core k).sregs = c.sregs ∧ t.getF (F.DBG_CORE_STATUS_CAUSE k) = 0 ∧ t.mem = s.mem
    (∀ port, port ≠ .pf → ∀ i ∈ [Instr.debugHalt port n, .resumeCore port n, .stepCore port n], exec i s = .next (s.denied port)) ∧
    (s.debugReaches (s.partOf n) = false → ∀ i ∈ rows, ∃ t, exec i s = .next t ∧ t.getF F.DBG_STATUS_WRITE_REJECT = 1 ∧ t.cores = s.cores) ∧
    (s.debugReaches (s.partOf n) = true → s.teamPresent (k / 9) = true → s.teamOn (k / 9) = false → ∀ i ∈ rows, ∃ t, exec i s = .next t ∧
      t.cores = s.cores ∧ (t.team (k / 9)).heldReq = true ∧ (t.team (k / 9)).heldCfg.length = (s.team (k / 9)).heldCfg.length + 1) ∧
    (s.debugReaches (s.partOf n) = true → s.teamPresent (k / 9) = true → s.teamOn (k / 9) = true →
      (c.run = true → c.stopped = false → ∃ t, exec (.debugHalt .pf n) s = .next t ∧ (t.core k).stopped = true ∧ (t.core k).stepping = false ∧
        (t.core k).run = true ∧ (t.core k).pc = c.pc ∧ (t.core k).sregs = c.sregs ∧ t.getF (F.DBG_CORE_STATUS_CAUSE k) = 3 ∧ t.mem = s.mem) ∧
      (c.stopped = true → (∃ t, exec (.resumeCore .pf n) s = .next t ∧ gone t false) ∧ ∃ t, exec (.stepCore .pf n) s = .next t ∧ gone t true))

/-! ### Isolation -/

/-- R325, R412, R425: a write that a VF carries to any CFG offset changes no memory, no core, no partition, object, key, job,
flow, fuse or flash byte, and nothing of management. Of the registers it can change those of its own rings, the templates
and stream contexts of its partition's share, its partition's KV window, and four counts and status words; of interrupt
tables its own; and it latches nothing for the snapshot but what concerns its own rings and its own partition. The model's
own reading enters in: which writes are denied and how (logs 38, 43, 95, 96). -/
def Obligations.VfIsolation : Prop :=
  ∀ (s t : State) (v now off : Nat) (w : W32), exec (.registerWrite (.vf v) now off w) s = .next t →
    let mine (p : Option Nat) : Prop := p ≠ none ∧ p = s.vfPart v
    let own (o : Nat) : Prop := o ∈ [0x80000, 0x80018, 0x700008, 0x800070] ∨
      (0x100000 ≤ o ∧ o < 0x200000 ∧ s.rOWNER ((o - 0x100000) / 64) = v) ∨
      (0x240000 ≤ o ∧ o < 0x280000 ∧ mine (s.shareOwner ((o - 0x240000) / 64))) ∨
      (0x3C0000 ≤ o ∧ o < 0x3C0800 ∧ mine (some ((o - 0x3C0000) / 0x100))) ∨
      (0x780000 ≤ o ∧ o < 0x800000 ∧ mine (s.shareOwner ((o - 0x780000) / 128)))
    let may (e : Ev) : Prop := match e with
      | .kvCmd p _ _ => mine (some p)
      | .kvPush p _ _ => mine (some p)
      | .kvConfig p _ _ => mine (some p)
      | .ringEnable r _ => s.rOWNER r = v
      | .cfgWrite o _ => 0x200100 ≤ o ∧ o < 0x200180 ∧ mine (some ((o - 0x200100) / 16))
      | .ctxLive n _ _ => mine (s.shareOwner n)
      | _ => False
    t.phase = s.phase ∧ t.mem = s.mem ∧ t.cores = s.cores ∧ t.teams = s.teams ∧ t.parts = s.parts ∧ t.objs = s.objs ∧ t.keys = s.keys ∧
    t.jobs = s.jobs ∧ t.rings = s.rings ∧ t.fab = s.fab ∧ t.vis = s.vis ∧ t.tdis = s.tdis ∧ t.fuses = s.fuses ∧ t.flash = s.flash ∧
    t.pace = s.pace ∧ t.rein = s.rein ∧ t.assay = s.assay ∧ t.hcore = s.hcore ∧ t.mgmt = s.mgmt ∧ t.jtag = s.jtag ∧
    (∀ o, t.rd o ≠ s.rd o → own o) ∧ (∀ e ∈ t.events, e ∈ s.events ∨ may e) ∧
    ∀ i, tget msix0 t.msix i ≠ tget msix0 s.msix i → (128 * v ≤ i ∧ i < 128 * v + 128) ∨ i = 0x10000 + v
end

