-- ==== Sys2Proof/Laws/State.lean ====
section
/-!
SUPPORT. Tables and the state's fields: what an update leaves.
-/
namespace Sys2Proof.Machine

/-! ### Tables: reading after writing -/

theorem tget_filter_ne {α : Type} (d : Nat → α) (t : Tbl α) (k j : Nat) :
    tget d (t.filter fun e => e.1 != k) j = if j = k then d k else tget d t j := by
  induction t with
  | nil => simp [tget]; intro h; rw [h]
  | cons e t ih =>
    obtain ⟨a, v⟩ := e
    by_cases h : a = k
    · subst h; simp [ih, tget]; split <;> simp_all
    · simp [h, tget, ih]; split <;> simp_all

theorem tget_tput {α : Type} (d : Nat → α) (t : Tbl α) (k j : Nat) (v : α) (h : ∀ e ∈ t, e.1 ≠ k) :
    tget d (tput t k v) j = if j = k then v else tget d t j := by
  induction t with
  | nil => simp [tput, tget]
  | cons e t ih =>
    obtain ⟨a, x⟩ := e
    have ha : a ≠ k := h (a, x) (by simp)
    have ih := ih (fun e he => h e (by simp [he]))
    simp only [tput]
    split <;> simp [tget, ih] <;> split <;> simp_all

/-- Reading a table after writing it: the key written gives the value, every other key what it gave before. -/
theorem tget_tset {α : Type} [DecidableEq α] (d : Nat → α) (t : Tbl α) (k j : Nat) (v : α) :
    tget d (tset d t k v) j = if j = k then v else tget d t j := by
  unfold tset
  by_cases h : v = d k
  · simp [h, tget_filter_ne]
  · simp only [h, if_false]
    rw [tget_tput d _ k j v (by simp), tget_filter_ne]
    split <;> simp_all

@[simp] theorem tget_tset_same {α : Type} [DecidableEq α] (d : Nat → α) (t : Tbl α) (k : Nat) (v : α) :
    tget d (tset d t k v) k = v := by simp [tget_tset]

theorem tget_tset_ne {α : Type} [DecidableEq α] (d : Nat → α) (t : Tbl α) (k j : Nat) (v : α) (h : j ≠ k) :
    tget d (tset d t k v) j = tget d t j := by simp [tget_tset, h]

/-- Reading a table after a range of keys went back to its default. -/
theorem tget_tclear {α : Type} (d : Nat → α) (t : Tbl α) (lo hi j : Nat) :
    tget d (tclear lo hi t) j = if lo ≤ j ∧ j < hi then d j else tget d t j := by
  induction t with
  | nil => simp [tclear, tget]
  | cons e t ih =>
    obtain ⟨a, v⟩ := e
    simp only [tclear] at ih ⊢
    by_cases h : a < lo ∨ hi ≤ a
    · rw [List.filter_cons_of_pos (by simpa using h)]
      simp only [tget, ih]
      by_cases hj : j = a
      · subst hj; rw [if_pos rfl, if_pos rfl, if_neg (by omega)]
      · simp [hj]
    · rw [List.filter_cons_of_neg (by simpa using h)]
      simp only [tget, ih]
      by_cases hj : j = a
      · subst hj; rw [if_pos (by omega), if_pos (by omega)]
      · simp [hj]

/-! ### Tables: the canonical form -/

theorem tokFrom_mono {α : Type} [DecidableEq α] (d : Nat → α) (t : Tbl α) (a b : Nat) (h : a ≤ b)
    (ht : tokFrom d b t = true) : tokFrom d a t = true := by
  cases t with
  | nil => rfl
  | cons e t => simp [tokFrom] at *; exact ⟨⟨by omega, ht.1.2⟩, ht.2⟩

theorem tokFrom_filter {α : Type} [DecidableEq α] (d : Nat → α) (p : Nat × α → Bool) (t : Tbl α) (b : Nat)
    (h : tokFrom d b t = true) : tokFrom d b (t.filter p) = true := by
  induction t generalizing b with
  | nil => rfl
  | cons e t ih =>
    obtain ⟨k, v⟩ := e
    simp only [tokFrom, Bool.and_eq_true, decide_eq_true_eq] at h
    by_cases hp : p (k, v) = true
    · rw [List.filter_cons_of_pos hp]
      simp only [tokFrom, Bool.and_eq_true, decide_eq_true_eq]
      exact ⟨h.1, ih _ h.2⟩
    · rw [List.filter_cons_of_neg hp]
      exact ih b (tokFrom_mono d t b (k + 1) (by omega) h.2)

theorem tokFrom_tput {α : Type} [DecidableEq α] (d : Nat → α) (t : Tbl α) (b k : Nat) (v : α) (hb : b ≤ k)
    (hv : v ≠ d k) (hk : ∀ e ∈ t, e.1 ≠ k) (h : tokFrom d b t = true) : tokFrom d b (tput t k v) = true := by
  induction t generalizing b with
  | nil => simp [tput, tokFrom, hb, hv]
  | cons e t ih =>
    obtain ⟨a, x⟩ := e
    have ha : a ≠ k := hk (a, x) (by simp)
    simp only [tokFrom, Bool.and_eq_true, decide_eq_true_eq] at h
    simp only [tput]
    split
    · simp only [tokFrom, Bool.and_eq_true, decide_eq_true_eq]
      exact ⟨⟨hb, hv⟩, ⟨by omega, h.1.2⟩, h.2⟩
    · simp only [tokFrom, Bool.and_eq_true, decide_eq_true_eq]
      exact ⟨h.1, ih (a + 1) (by omega) (fun e he => hk e (by simp [he])) h.2⟩

/-- A write keeps the canonical form. -/
theorem tok_tset {α : Type} [DecidableEq α] (d : Nat → α) (t : Tbl α) (k : Nat) (v : α) (h : tok d t = true) :
    tok d (tset d t k v) = true := by
  unfold tset tok
  have hf := tokFrom_filter d (fun e => e.1 != k) t 0 h
  by_cases hv : v = d k
  · simpa [hv] using hf
  · simpa [hv] using tokFrom_tput d _ 0 k v (by omega) hv (by simp) hf

/-- Leaving entries out keeps the canonical form. -/
theorem tok_filter {α : Type} [DecidableEq α] (d : Nat → α) (p : Nat × α → Bool) (t : Tbl α) (h : tok d t = true) :
    tok d (t.filter p) = true := tokFrom_filter d p t 0 h

theorem tok_tclear {α : Type} [DecidableEq α] (d : Nat → α) (t : Tbl α) (lo hi : Nat) (h : tok d t = true) :
    tok d (tclear lo hi t) = true := tokFrom_filter d _ t 0 h

end Sys2Proof.Machine
end

