-- ==== Sys2Proof/Laws/Fields.lean ====
section
/-!
SUPPORT. The shared updates of the state, field by field: what each leaves.
-/
namespace Sys2Proof.Machine

/-! `State.setCore` changes cores alone. -/
@[simp] theorem State.setCore_pending (s : State) (k : Nat) (c : Core) : (s.setCore k c).pending = s.pending := rfl
@[simp] theorem State.setCore_regs (s : State) (k : Nat) (c : Core) : (s.setCore k c).regs = s.regs := rfl
@[simp] theorem State.setCore_mem (s : State) (k : Nat) (c : Core) : (s.setCore k c).mem = s.mem := rfl
@[simp] theorem State.setCore_fresh (s : State) (k : Nat) (c : Core) : (s.setCore k c).fresh = s.fresh := rfl
@[simp] theorem State.setCore_events (s : State) (k : Nat) (c : Core) : (s.setCore k c).events = s.events := rfl
@[simp] theorem State.setCore_phase (s : State) (k : Nat) (c : Core) : (s.setCore k c).phase = s.phase := rfl
@[simp] theorem State.setCore_pace (s : State) (k : Nat) (c : Core) : (s.setCore k c).pace = s.pace := rfl
@[simp] theorem State.setCore_teams (s : State) (k : Nat) (c : Core) : (s.setCore k c).teams = s.teams := rfl
@[simp] theorem State.setCore_objs (s : State) (k : Nat) (c : Core) : (s.setCore k c).objs = s.objs := rfl
@[simp] theorem State.setCore_stabLoad (s : State) (k : Nat) (c : Core) : (s.setCore k c).stabLoad = s.stabLoad := rfl
@[simp] theorem State.setCore_keys (s : State) (k : Nat) (c : Core) : (s.setCore k c).keys = s.keys := rfl
@[simp] theorem State.setCore_errPlace (s : State) (k : Nat) (c : Core) : (s.setCore k c).errPlace = s.errPlace := rfl
@[simp] theorem State.setCore_copies (s : State) (k : Nat) (c : Core) : (s.setCore k c).copies = s.copies := rfl
@[simp] theorem State.setCore_gddrFails (s : State) (k : Nat) (c : Core) : (s.setCore k c).gddrFails = s.gddrFails := rfl
@[simp] theorem State.setCore_kvFree (s : State) (k : Nat) (c : Core) : (s.setCore k c).kvFree = s.kvFree := rfl
@[simp] theorem State.setCore_kvPushes (s : State) (k : Nat) (c : Core) : (s.setCore k c).kvPushes = s.kvPushes := rfl
@[simp] theorem State.setCore_kvTaken (s : State) (k : Nat) (c : Core) : (s.setCore k c).kvTaken = s.kvTaken := rfl
@[simp] theorem State.setCore_kvReuse (s : State) (k : Nat) (c : Core) : (s.setCore k c).kvReuse = s.kvReuse := rfl
@[simp] theorem State.setCore_ue (s : State) (k : Nat) (c : Core) : (s.setCore k c).ue = s.ue := rfl
@[simp] theorem State.setCore_tdis (s : State) (k : Nat) (c : Core) : (s.setCore k c).tdis = s.tdis := rfl
@[simp] theorem State.setCore_jobs (s : State) (k : Nat) (c : Core) : (s.setCore k c).jobs = s.jobs := rfl
@[simp] theorem State.setCore_nextJob (s : State) (k : Nat) (c : Core) : (s.setCore k c).nextJob = s.nextJob := rfl
@[simp] theorem State.setCore_deferred (s : State) (k : Nat) (c : Core) : (s.setCore k c).deferred = s.deferred := rfl
@[simp] theorem State.setCore_rings (s : State) (k : Nat) (c : Core) : (s.setCore k c).rings = s.rings := rfl
@[simp] theorem State.setCore_msix (s : State) (k : Nat) (c : Core) : (s.setCore k c).msix = s.msix := rfl
@[simp] theorem State.setCore_irqs (s : State) (k : Nat) (c : Core) : (s.setCore k c).irqs = s.irqs := rfl
@[simp] theorem State.setCore_frameEpoch (s : State) (k : Nat) (c : Core) : (s.setCore k c).frameEpoch = s.frameEpoch := rfl
@[simp] theorem State.setCore_fences (s : State) (k : Nat) (c : Core) : (s.setCore k c).fences = s.fences := rfl
@[simp] theorem State.setCore_parts (s : State) (k : Nat) (c : Core) : (s.setCore k c).parts = s.parts := rfl
@[simp] theorem State.setCore_budget (s : State) (k : Nat) (c : Core) : (s.setCore k c).budget = s.budget := rfl
@[simp] theorem State.setCore_profNext (s : State) (k : Nat) (c : Core) : (s.setCore k c).profNext = s.profNext := rfl
@[simp] theorem State.setCore_profBase (s : State) (k : Nat) (c : Core) : (s.setCore k c).profBase = s.profBase := rfl
@[simp] theorem State.setCore_sigs (s : State) (k : Nat) (c : Core) : (s.setCore k c).sigs = s.sigs := rfl
@[simp] theorem State.setCore_outcomes (s : State) (k : Nat) (c : Core) : (s.setCore k c).outcomes = s.outcomes := rfl
@[simp] theorem State.setCore_rein (s : State) (k : Nat) (c : Core) : (s.setCore k c).rein = s.rein := rfl
@[simp] theorem State.setCore_vis (s : State) (k : Nat) (c : Core) : (s.setCore k c).vis = s.vis := rfl
@[simp] theorem State.setCore_fab (s : State) (k : Nat) (c : Core) : (s.setCore k c).fab = s.fab := rfl
@[simp] theorem State.setCore_fuses (s : State) (k : Nat) (c : Core) : (s.setCore k c).fuses = s.fuses := rfl
@[simp] theorem State.setCore_bootFuses (s : State) (k : Nat) (c : Core) : (s.setCore k c).bootFuses = s.bootFuses := rfl
@[simp] theorem State.setCore_flash (s : State) (k : Nat) (c : Core) : (s.setCore k c).flash = s.flash := rfl
@[simp] theorem State.setCore_aon (s : State) (k : Nat) (c : Core) : (s.setCore k c).aon = s.aon := rfl
@[simp] theorem State.setCore_assay (s : State) (k : Nat) (c : Core) : (s.setCore k c).assay = s.assay := rfl
@[simp] theorem State.setCore_hcore (s : State) (k : Nat) (c : Core) : (s.setCore k c).hcore = s.hcore := rfl
@[simp] theorem State.setCore_spdm (s : State) (k : Nat) (c : Core) : (s.setCore k c).spdm = s.spdm := rfl
@[simp] theorem State.setCore_ide (s : State) (k : Nat) (c : Core) : (s.setCore k c).ide = s.ide := rfl
@[simp] theorem State.setCore_tdiNonce (s : State) (k : Nat) (c : Core) : (s.setCore k c).tdiNonce = s.tdiNonce := rfl
@[simp] theorem State.setCore_doe (s : State) (k : Nat) (c : Core) : (s.setCore k c).doe = s.doe := rfl
@[simp] theorem State.setCore_mgmt (s : State) (k : Nat) (c : Core) : (s.setCore k c).mgmt = s.mgmt := rfl
@[simp] theorem State.setCore_jtag (s : State) (k : Nat) (c : Core) : (s.setCore k c).jtag = s.jtag := rfl

/-! `State.modCore` changes cores alone. -/
@[simp] theorem State.modCore_pending (s : State) (k : Nat) (f : Core → Core) : (s.modCore k f).pending = s.pending := rfl
@[simp] theorem State.modCore_regs (s : State) (k : Nat) (f : Core → Core) : (s.modCore k f).regs = s.regs := rfl
@[simp] theorem State.modCore_mem (s : State) (k : Nat) (f : Core → Core) : (s.modCore k f).mem = s.mem := rfl
@[simp] theorem State.modCore_fresh (s : State) (k : Nat) (f : Core → Core) : (s.modCore k f).fresh = s.fresh := rfl
@[simp] theorem State.modCore_events (s : State) (k : Nat) (f : Core → Core) : (s.modCore k f).events = s.events := rfl
@[simp] theorem State.modCore_phase (s : State) (k : Nat) (f : Core → Core) : (s.modCore k f).phase = s.phase := rfl
@[simp] theorem State.modCore_pace (s : State) (k : Nat) (f : Core → Core) : (s.modCore k f).pace = s.pace := rfl
@[simp] theorem State.modCore_teams (s : State) (k : Nat) (f : Core → Core) : (s.modCore k f).teams = s.teams := rfl
@[simp] theorem State.modCore_objs (s : State) (k : Nat) (f : Core → Core) : (s.modCore k f).objs = s.objs := rfl
@[simp] theorem State.modCore_stabLoad (s : State) (k : Nat) (f : Core → Core) : (s.modCore k f).stabLoad = s.stabLoad := rfl
@[simp] theorem State.modCore_keys (s : State) (k : Nat) (f : Core → Core) : (s.modCore k f).keys = s.keys := rfl
@[simp] theorem State.modCore_errPlace (s : State) (k : Nat) (f : Core → Core) : (s.modCore k f).errPlace = s.errPlace := rfl
@[simp] theorem State.modCore_copies (s : State) (k : Nat) (f : Core → Core) : (s.modCore k f).copies = s.copies := rfl
@[simp] theorem State.modCore_gddrFails (s : State) (k : Nat) (f : Core → Core) : (s.modCore k f).gddrFails = s.gddrFails := rfl
@[simp] theorem State.modCore_kvFree (s : State) (k : Nat) (f : Core → Core) : (s.modCore k f).kvFree = s.kvFree := rfl
@[simp] theorem State.modCore_kvPushes (s : State) (k : Nat) (f : Core → Core) : (s.modCore k f).kvPushes = s.kvPushes := rfl
@[simp] theorem State.modCore_kvTaken (s : State) (k : Nat) (f : Core → Core) : (s.modCore k f).kvTaken = s.kvTaken := rfl
@[simp] theorem State.modCore_kvReuse (s : State) (k : Nat) (f : Core → Core) : (s.modCore k f).kvReuse = s.kvReuse := rfl
@[simp] theorem State.modCore_ue (s : State) (k : Nat) (f : Core → Core) : (s.modCore k f).ue = s.ue := rfl
@[simp] theorem State.modCore_tdis (s : State) (k : Nat) (f : Core → Core) : (s.modCore k f).tdis = s.tdis := rfl
@[simp] theorem State.modCore_jobs (s : State) (k : Nat) (f : Core → Core) : (s.modCore k f).jobs = s.jobs := rfl
@[simp] theorem State.modCore_nextJob (s : State) (k : Nat) (f : Core → Core) : (s.modCore k f).nextJob = s.nextJob := rfl
@[simp] theorem State.modCore_deferred (s : State) (k : Nat) (f : Core → Core) : (s.modCore k f).deferred = s.deferred := rfl
@[simp] theorem State.modCore_rings (s : State) (k : Nat) (f : Core → Core) : (s.modCore k f).rings = s.rings := rfl
@[simp] theorem State.modCore_msix (s : State) (k : Nat) (f : Core → Core) : (s.modCore k f).msix = s.msix := rfl
@[simp] theorem State.modCore_irqs (s : State) (k : Nat) (f : Core → Core) : (s.modCore k f).irqs = s.irqs := rfl
@[simp] theorem State.modCore_frameEpoch (s : State) (k : Nat) (f : Core → Core) : (s.modCore k f).frameEpoch = s.frameEpoch := rfl
@[simp] theorem State.modCore_fences (s : State) (k : Nat) (f : Core → Core) : (s.modCore k f).fences = s.fences := rfl
@[simp] theorem State.modCore_parts (s : State) (k : Nat) (f : Core → Core) : (s.modCore k f).parts = s.parts := rfl
@[simp] theorem State.modCore_budget (s : State) (k : Nat) (f : Core → Core) : (s.modCore k f).budget = s.budget := rfl
@[simp] theorem State.modCore_profNext (s : State) (k : Nat) (f : Core → Core) : (s.modCore k f).profNext = s.profNext := rfl
@[simp] theorem State.modCore_profBase (s : State) (k : Nat) (f : Core → Core) : (s.modCore k f).profBase = s.profBase := rfl
@[simp] theorem State.modCore_sigs (s : State) (k : Nat) (f : Core → Core) : (s.modCore k f).sigs = s.sigs := rfl
@[simp] theorem State.modCore_outcomes (s : State) (k : Nat) (f : Core → Core) : (s.modCore k f).outcomes = s.outcomes := rfl
@[simp] theorem State.modCore_rein (s : State) (k : Nat) (f : Core → Core) : (s.modCore k f).rein = s.rein := rfl
@[simp] theorem State.modCore_vis (s : State) (k : Nat) (f : Core → Core) : (s.modCore k f).vis = s.vis := rfl
@[simp] theorem State.modCore_fab (s : State) (k : Nat) (f : Core → Core) : (s.modCore k f).fab = s.fab := rfl
@[simp] theorem State.modCore_fuses (s : State) (k : Nat) (f : Core → Core) : (s.modCore k f).fuses = s.fuses := rfl
@[simp] theorem State.modCore_bootFuses (s : State) (k : Nat) (f : Core → Core) : (s.modCore k f).bootFuses = s.bootFuses := rfl
@[simp] theorem State.modCore_flash (s : State) (k : Nat) (f : Core → Core) : (s.modCore k f).flash = s.flash := rfl
@[simp] theorem State.modCore_aon (s : State) (k : Nat) (f : Core → Core) : (s.modCore k f).aon = s.aon := rfl
@[simp] theorem State.modCore_assay (s : State) (k : Nat) (f : Core → Core) : (s.modCore k f).assay = s.assay := rfl
@[simp] theorem State.modCore_hcore (s : State) (k : Nat) (f : Core → Core) : (s.modCore k f).hcore = s.hcore := rfl
@[simp] theorem State.modCore_spdm (s : State) (k : Nat) (f : Core → Core) : (s.modCore k f).spdm = s.spdm := rfl
@[simp] theorem State.modCore_ide (s : State) (k : Nat) (f : Core → Core) : (s.modCore k f).ide = s.ide := rfl
@[simp] theorem State.modCore_tdiNonce (s : State) (k : Nat) (f : Core → Core) : (s.modCore k f).tdiNonce = s.tdiNonce := rfl
@[simp] theorem State.modCore_doe (s : State) (k : Nat) (f : Core → Core) : (s.modCore k f).doe = s.doe := rfl
@[simp] theorem State.modCore_mgmt (s : State) (k : Nat) (f : Core → Core) : (s.modCore k f).mgmt = s.mgmt := rfl
@[simp] theorem State.modCore_jtag (s : State) (k : Nat) (f : Core → Core) : (s.modCore k f).jtag = s.jtag := rfl

/-! `State.setTeam` changes teams alone. -/
@[simp] theorem State.setTeam_pending (s : State) (t : Nat) (x : Team) : (s.setTeam t x).pending = s.pending := rfl
@[simp] theorem State.setTeam_regs (s : State) (t : Nat) (x : Team) : (s.setTeam t x).regs = s.regs := rfl
@[simp] theorem State.setTeam_mem (s : State) (t : Nat) (x : Team) : (s.setTeam t x).mem = s.mem := rfl
@[simp] theorem State.setTeam_fresh (s : State) (t : Nat) (x : Team) : (s.setTeam t x).fresh = s.fresh := rfl
@[simp] theorem State.setTeam_events (s : State) (t : Nat) (x : Team) : (s.setTeam t x).events = s.events := rfl
@[simp] theorem State.setTeam_phase (s : State) (t : Nat) (x : Team) : (s.setTeam t x).phase = s.phase := rfl
@[simp] theorem State.setTeam_pace (s : State) (t : Nat) (x : Team) : (s.setTeam t x).pace = s.pace := rfl
@[simp] theorem State.setTeam_cores (s : State) (t : Nat) (x : Team) : (s.setTeam t x).cores = s.cores := rfl
@[simp] theorem State.setTeam_objs (s : State) (t : Nat) (x : Team) : (s.setTeam t x).objs = s.objs := rfl
@[simp] theorem State.setTeam_stabLoad (s : State) (t : Nat) (x : Team) : (s.setTeam t x).stabLoad = s.stabLoad := rfl
@[simp] theorem State.setTeam_keys (s : State) (t : Nat) (x : Team) : (s.setTeam t x).keys = s.keys := rfl
@[simp] theorem State.setTeam_errPlace (s : State) (t : Nat) (x : Team) : (s.setTeam t x).errPlace = s.errPlace := rfl
@[simp] theorem State.setTeam_copies (s : State) (t : Nat) (x : Team) : (s.setTeam t x).copies = s.copies := rfl
@[simp] theorem State.setTeam_gddrFails (s : State) (t : Nat) (x : Team) : (s.setTeam t x).gddrFails = s.gddrFails := rfl
@[simp] theorem State.setTeam_kvFree (s : State) (t : Nat) (x : Team) : (s.setTeam t x).kvFree = s.kvFree := rfl
@[simp] theorem State.setTeam_kvPushes (s : State) (t : Nat) (x : Team) : (s.setTeam t x).kvPushes = s.kvPushes := rfl
@[simp] theorem State.setTeam_kvTaken (s : State) (t : Nat) (x : Team) : (s.setTeam t x).kvTaken = s.kvTaken := rfl
@[simp] theorem State.setTeam_kvReuse (s : State) (t : Nat) (x : Team) : (s.setTeam t x).kvReuse = s.kvReuse := rfl
@[simp] theorem State.setTeam_ue (s : State) (t : Nat) (x : Team) : (s.setTeam t x).ue = s.ue := rfl
@[simp] theorem State.setTeam_tdis (s : State) (t : Nat) (x : Team) : (s.setTeam t x).tdis = s.tdis := rfl
@[simp] theorem State.setTeam_jobs (s : State) (t : Nat) (x : Team) : (s.setTeam t x).jobs = s.jobs := rfl
@[simp] theorem State.setTeam_nextJob (s : State) (t : Nat) (x : Team) : (s.setTeam t x).nextJob = s.nextJob := rfl
@[simp] theorem State.setTeam_deferred (s : State) (t : Nat) (x : Team) : (s.setTeam t x).deferred = s.deferred := rfl
@[simp] theorem State.setTeam_rings (s : State) (t : Nat) (x : Team) : (s.setTeam t x).rings = s.rings := rfl
@[simp] theorem State.setTeam_msix (s : State) (t : Nat) (x : Team) : (s.setTeam t x).msix = s.msix := rfl
@[simp] theorem State.setTeam_irqs (s : State) (t : Nat) (x : Team) : (s.setTeam t x).irqs = s.irqs := rfl
@[simp] theorem State.setTeam_frameEpoch (s : State) (t : Nat) (x : Team) : (s.setTeam t x).frameEpoch = s.frameEpoch := rfl
@[simp] theorem State.setTeam_fences (s : State) (t : Nat) (x : Team) : (s.setTeam t x).fences = s.fences := rfl
@[simp] theorem State.setTeam_parts (s : State) (t : Nat) (x : Team) : (s.setTeam t x).parts = s.parts := rfl
@[simp] theorem State.setTeam_budget (s : State) (t : Nat) (x : Team) : (s.setTeam t x).budget = s.budget := rfl
@[simp] theorem State.setTeam_profNext (s : State) (t : Nat) (x : Team) : (s.setTeam t x).profNext = s.profNext := rfl
@[simp] theorem State.setTeam_profBase (s : State) (t : Nat) (x : Team) : (s.setTeam t x).profBase = s.profBase := rfl
@[simp] theorem State.setTeam_sigs (s : State) (t : Nat) (x : Team) : (s.setTeam t x).sigs = s.sigs := rfl
@[simp] theorem State.setTeam_outcomes (s : State) (t : Nat) (x : Team) : (s.setTeam t x).outcomes = s.outcomes := rfl
@[simp] theorem State.setTeam_rein (s : State) (t : Nat) (x : Team) : (s.setTeam t x).rein = s.rein := rfl
@[simp] theorem State.setTeam_vis (s : State) (t : Nat) (x : Team) : (s.setTeam t x).vis = s.vis := rfl
@[simp] theorem State.setTeam_fab (s : State) (t : Nat) (x : Team) : (s.setTeam t x).fab = s.fab := rfl
@[simp] theorem State.setTeam_fuses (s : State) (t : Nat) (x : Team) : (s.setTeam t x).fuses = s.fuses := rfl
@[simp] theorem State.setTeam_bootFuses (s : State) (t : Nat) (x : Team) : (s.setTeam t x).bootFuses = s.bootFuses := rfl
@[simp] theorem State.setTeam_flash (s : State) (t : Nat) (x : Team) : (s.setTeam t x).flash = s.flash := rfl
@[simp] theorem State.setTeam_aon (s : State) (t : Nat) (x : Team) : (s.setTeam t x).aon = s.aon := rfl
@[simp] theorem State.setTeam_assay (s : State) (t : Nat) (x : Team) : (s.setTeam t x).assay = s.assay := rfl
@[simp] theorem State.setTeam_hcore (s : State) (t : Nat) (x : Team) : (s.setTeam t x).hcore = s.hcore := rfl
@[simp] theorem State.setTeam_spdm (s : State) (t : Nat) (x : Team) : (s.setTeam t x).spdm = s.spdm := rfl
@[simp] theorem State.setTeam_ide (s : State) (t : Nat) (x : Team) : (s.setTeam t x).ide = s.ide := rfl
@[simp] theorem State.setTeam_tdiNonce (s : State) (t : Nat) (x : Team) : (s.setTeam t x).tdiNonce = s.tdiNonce := rfl
@[simp] theorem State.setTeam_doe (s : State) (t : Nat) (x : Team) : (s.setTeam t x).doe = s.doe := rfl
@[simp] theorem State.setTeam_mgmt (s : State) (t : Nat) (x : Team) : (s.setTeam t x).mgmt = s.mgmt := rfl
@[simp] theorem State.setTeam_jtag (s : State) (t : Nat) (x : Team) : (s.setTeam t x).jtag = s.jtag := rfl

/-! `State.modTeam` changes teams alone. -/
@[simp] theorem State.modTeam_pending (s : State) (t : Nat) (f : Team → Team) : (s.modTeam t f).pending = s.pending := rfl
@[simp] theorem State.modTeam_regs (s : State) (t : Nat) (f : Team → Team) : (s.modTeam t f).regs = s.regs := rfl
@[simp] theorem State.modTeam_mem (s : State) (t : Nat) (f : Team → Team) : (s.modTeam t f).mem = s.mem := rfl
@[simp] theorem State.modTeam_fresh (s : State) (t : Nat) (f : Team → Team) : (s.modTeam t f).fresh = s.fresh := rfl
@[simp] theorem State.modTeam_events (s : State) (t : Nat) (f : Team → Team) : (s.modTeam t f).events = s.events := rfl
@[simp] theorem State.modTeam_phase (s : State) (t : Nat) (f : Team → Team) : (s.modTeam t f).phase = s.phase := rfl
@[simp] theorem State.modTeam_pace (s : State) (t : Nat) (f : Team → Team) : (s.modTeam t f).pace = s.pace := rfl
@[simp] theorem State.modTeam_cores (s : State) (t : Nat) (f : Team → Team) : (s.modTeam t f).cores = s.cores := rfl
@[simp] theorem State.modTeam_objs (s : State) (t : Nat) (f : Team → Team) : (s.modTeam t f).objs = s.objs := rfl
@[simp] theorem State.modTeam_stabLoad (s : State) (t : Nat) (f : Team → Team) : (s.modTeam t f).stabLoad = s.stabLoad := rfl
@[simp] theorem State.modTeam_keys (s : State) (t : Nat) (f : Team → Team) : (s.modTeam t f).keys = s.keys := rfl
@[simp] theorem State.modTeam_errPlace (s : State) (t : Nat) (f : Team → Team) : (s.modTeam t f).errPlace = s.errPlace := rfl
@[simp] theorem State.modTeam_copies (s : State) (t : Nat) (f : Team → Team) : (s.modTeam t f).copies = s.copies := rfl
@[simp] theorem State.modTeam_gddrFails (s : State) (t : Nat) (f : Team → Team) : (s.modTeam t f).gddrFails = s.gddrFails := rfl
@[simp] theorem State.modTeam_kvFree (s : State) (t : Nat) (f : Team → Team) : (s.modTeam t f).kvFree = s.kvFree := rfl
@[simp] theorem State.modTeam_kvPushes (s : State) (t : Nat) (f : Team → Team) : (s.modTeam t f).kvPushes = s.kvPushes := rfl
@[simp] theorem State.modTeam_kvTaken (s : State) (t : Nat) (f : Team → Team) : (s.modTeam t f).kvTaken = s.kvTaken := rfl
@[simp] theorem State.modTeam_kvReuse (s : State) (t : Nat) (f : Team → Team) : (s.modTeam t f).kvReuse = s.kvReuse := rfl
@[simp] theorem State.modTeam_ue (s : State) (t : Nat) (f : Team → Team) : (s.modTeam t f).ue = s.ue := rfl
@[simp] theorem State.modTeam_tdis (s : State) (t : Nat) (f : Team → Team) : (s.modTeam t f).tdis = s.tdis := rfl
@[simp] theorem State.modTeam_jobs (s : State) (t : Nat) (f : Team → Team) : (s.modTeam t f).jobs = s.jobs := rfl
@[simp] theorem State.modTeam_nextJob (s : State) (t : Nat) (f : Team → Team) : (s.modTeam t f).nextJob = s.nextJob := rfl
@[simp] theorem State.modTeam_deferred (s : State) (t : Nat) (f : Team → Team) : (s.modTeam t f).deferred = s.deferred := rfl
@[simp] theorem State.modTeam_rings (s : State) (t : Nat) (f : Team → Team) : (s.modTeam t f).rings = s.rings := rfl
@[simp] theorem State.modTeam_msix (s : State) (t : Nat) (f : Team → Team) : (s.modTeam t f).msix = s.msix := rfl
@[simp] theorem State.modTeam_irqs (s : State) (t : Nat) (f : Team → Team) : (s.modTeam t f).irqs = s.irqs := rfl
@[simp] theorem State.modTeam_frameEpoch (s : State) (t : Nat) (f : Team → Team) : (s.modTeam t f).frameEpoch = s.frameEpoch := rfl
@[simp] theorem State.modTeam_fences (s : State) (t : Nat) (f : Team → Team) : (s.modTeam t f).fences = s.fences := rfl
@[simp] theorem State.modTeam_parts (s : State) (t : Nat) (f : Team → Team) : (s.modTeam t f).parts = s.parts := rfl
@[simp] theorem State.modTeam_budget (s : State) (t : Nat) (f : Team → Team) : (s.modTeam t f).budget = s.budget := rfl
@[simp] theorem State.modTeam_profNext (s : State) (t : Nat) (f : Team → Team) : (s.modTeam t f).profNext = s.profNext := rfl
@[simp] theorem State.modTeam_profBase (s : State) (t : Nat) (f : Team → Team) : (s.modTeam t f).profBase = s.profBase := rfl
@[simp] theorem State.modTeam_sigs (s : State) (t : Nat) (f : Team → Team) : (s.modTeam t f).sigs = s.sigs := rfl
@[simp] theorem State.modTeam_outcomes (s : State) (t : Nat) (f : Team → Team) : (s.modTeam t f).outcomes = s.outcomes := rfl
@[simp] theorem State.modTeam_rein (s : State) (t : Nat) (f : Team → Team) : (s.modTeam t f).rein = s.rein := rfl
@[simp] theorem State.modTeam_vis (s : State) (t : Nat) (f : Team → Team) : (s.modTeam t f).vis = s.vis := rfl
@[simp] theorem State.modTeam_fab (s : State) (t : Nat) (f : Team → Team) : (s.modTeam t f).fab = s.fab := rfl
@[simp] theorem State.modTeam_fuses (s : State) (t : Nat) (f : Team → Team) : (s.modTeam t f).fuses = s.fuses := rfl
@[simp] theorem State.modTeam_bootFuses (s : State) (t : Nat) (f : Team → Team) : (s.modTeam t f).bootFuses = s.bootFuses := rfl
@[simp] theorem State.modTeam_flash (s : State) (t : Nat) (f : Team → Team) : (s.modTeam t f).flash = s.flash := rfl
@[simp] theorem State.modTeam_aon (s : State) (t : Nat) (f : Team → Team) : (s.modTeam t f).aon = s.aon := rfl
@[simp] theorem State.modTeam_assay (s : State) (t : Nat) (f : Team → Team) : (s.modTeam t f).assay = s.assay := rfl
@[simp] theorem State.modTeam_hcore (s : State) (t : Nat) (f : Team → Team) : (s.modTeam t f).hcore = s.hcore := rfl
@[simp] theorem State.modTeam_spdm (s : State) (t : Nat) (f : Team → Team) : (s.modTeam t f).spdm = s.spdm := rfl
@[simp] theorem State.modTeam_ide (s : State) (t : Nat) (f : Team → Team) : (s.modTeam t f).ide = s.ide := rfl
@[simp] theorem State.modTeam_tdiNonce (s : State) (t : Nat) (f : Team → Team) : (s.modTeam t f).tdiNonce = s.tdiNonce := rfl
@[simp] theorem State.modTeam_doe (s : State) (t : Nat) (f : Team → Team) : (s.modTeam t f).doe = s.doe := rfl
@[simp] theorem State.modTeam_mgmt (s : State) (t : Nat) (f : Team → Team) : (s.modTeam t f).mgmt = s.mgmt := rfl
@[simp] theorem State.modTeam_jtag (s : State) (t : Nat) (f : Team → Team) : (s.modTeam t f).jtag = s.jtag := rfl

/-! `State.wr` changes regs alone. -/
@[simp] theorem State.wr_pending (s : State) (o : Nat) (v : W32) : (s.wr o v).pending = s.pending := rfl
@[simp] theorem State.wr_mem (s : State) (o : Nat) (v : W32) : (s.wr o v).mem = s.mem := rfl
@[simp] theorem State.wr_fresh (s : State) (o : Nat) (v : W32) : (s.wr o v).fresh = s.fresh := rfl
@[simp] theorem State.wr_events (s : State) (o : Nat) (v : W32) : (s.wr o v).events = s.events := rfl
@[simp] theorem State.wr_phase (s : State) (o : Nat) (v : W32) : (s.wr o v).phase = s.phase := rfl
@[simp] theorem State.wr_pace (s : State) (o : Nat) (v : W32) : (s.wr o v).pace = s.pace := rfl
@[simp] theorem State.wr_cores (s : State) (o : Nat) (v : W32) : (s.wr o v).cores = s.cores := rfl
@[simp] theorem State.wr_teams (s : State) (o : Nat) (v : W32) : (s.wr o v).teams = s.teams := rfl
@[simp] theorem State.wr_objs (s : State) (o : Nat) (v : W32) : (s.wr o v).objs = s.objs := rfl
@[simp] theorem State.wr_stabLoad (s : State) (o : Nat) (v : W32) : (s.wr o v).stabLoad = s.stabLoad := rfl
@[simp] theorem State.wr_keys (s : State) (o : Nat) (v : W32) : (s.wr o v).keys = s.keys := rfl
@[simp] theorem State.wr_errPlace (s : State) (o : Nat) (v : W32) : (s.wr o v).errPlace = s.errPlace := rfl
@[simp] theorem State.wr_copies (s : State) (o : Nat) (v : W32) : (s.wr o v).copies = s.copies := rfl
@[simp] theorem State.wr_gddrFails (s : State) (o : Nat) (v : W32) : (s.wr o v).gddrFails = s.gddrFails := rfl
@[simp] theorem State.wr_kvFree (s : State) (o : Nat) (v : W32) : (s.wr o v).kvFree = s.kvFree := rfl
@[simp] theorem State.wr_kvPushes (s : State) (o : Nat) (v : W32) : (s.wr o v).kvPushes = s.kvPushes := rfl
@[simp] theorem State.wr_kvTaken (s : State) (o : Nat) (v : W32) : (s.wr o v).kvTaken = s.kvTaken := rfl
@[simp] theorem State.wr_kvReuse (s : State) (o : Nat) (v : W32) : (s.wr o v).kvReuse = s.kvReuse := rfl
@[simp] theorem State.wr_ue (s : State) (o : Nat) (v : W32) : (s.wr o v).ue = s.ue := rfl
@[simp] theorem State.wr_tdis (s : State) (o : Nat) (v : W32) : (s.wr o v).tdis = s.tdis := rfl
@[simp] theorem State.wr_jobs (s : State) (o : Nat) (v : W32) : (s.wr o v).jobs = s.jobs := rfl
@[simp] theorem State.wr_nextJob (s : State) (o : Nat) (v : W32) : (s.wr o v).nextJob = s.nextJob := rfl
@[simp] theorem State.wr_deferred (s : State) (o : Nat) (v : W32) : (s.wr o v).deferred = s.deferred := rfl
@[simp] theorem State.wr_rings (s : State) (o : Nat) (v : W32) : (s.wr o v).rings = s.rings := rfl
@[simp] theorem State.wr_msix (s : State) (o : Nat) (v : W32) : (s.wr o v).msix = s.msix := rfl
@[simp] theorem State.wr_irqs (s : State) (o : Nat) (v : W32) : (s.wr o v).irqs = s.irqs := rfl
@[simp] theorem State.wr_frameEpoch (s : State) (o : Nat) (v : W32) : (s.wr o v).frameEpoch = s.frameEpoch := rfl
@[simp] theorem State.wr_fences (s : State) (o : Nat) (v : W32) : (s.wr o v).fences = s.fences := rfl
@[simp] theorem State.wr_parts (s : State) (o : Nat) (v : W32) : (s.wr o v).parts = s.parts := rfl
@[simp] theorem State.wr_budget (s : State) (o : Nat) (v : W32) : (s.wr o v).budget = s.budget := rfl
@[simp] theorem State.wr_profNext (s : State) (o : Nat) (v : W32) : (s.wr o v).profNext = s.profNext := rfl
@[simp] theorem State.wr_profBase (s : State) (o : Nat) (v : W32) : (s.wr o v).profBase = s.profBase := rfl
@[simp] theorem State.wr_sigs (s : State) (o : Nat) (v : W32) : (s.wr o v).sigs = s.sigs := rfl
@[simp] theorem State.wr_outcomes (s : State) (o : Nat) (v : W32) : (s.wr o v).outcomes = s.outcomes := rfl
@[simp] theorem State.wr_rein (s : State) (o : Nat) (v : W32) : (s.wr o v).rein = s.rein := rfl
@[simp] theorem State.wr_vis (s : State) (o : Nat) (v : W32) : (s.wr o v).vis = s.vis := rfl
@[simp] theorem State.wr_fab (s : State) (o : Nat) (v : W32) : (s.wr o v).fab = s.fab := rfl
@[simp] theorem State.wr_fuses (s : State) (o : Nat) (v : W32) : (s.wr o v).fuses = s.fuses := rfl
@[simp] theorem State.wr_bootFuses (s : State) (o : Nat) (v : W32) : (s.wr o v).bootFuses = s.bootFuses := rfl
@[simp] theorem State.wr_flash (s : State) (o : Nat) (v : W32) : (s.wr o v).flash = s.flash := rfl
@[simp] theorem State.wr_aon (s : State) (o : Nat) (v : W32) : (s.wr o v).aon = s.aon := rfl
@[simp] theorem State.wr_assay (s : State) (o : Nat) (v : W32) : (s.wr o v).assay = s.assay := rfl
@[simp] theorem State.wr_hcore (s : State) (o : Nat) (v : W32) : (s.wr o v).hcore = s.hcore := rfl
@[simp] theorem State.wr_spdm (s : State) (o : Nat) (v : W32) : (s.wr o v).spdm = s.spdm := rfl
@[simp] theorem State.wr_ide (s : State) (o : Nat) (v : W32) : (s.wr o v).ide = s.ide := rfl
@[simp] theorem State.wr_tdiNonce (s : State) (o : Nat) (v : W32) : (s.wr o v).tdiNonce = s.tdiNonce := rfl
@[simp] theorem State.wr_doe (s : State) (o : Nat) (v : W32) : (s.wr o v).doe = s.doe := rfl
@[simp] theorem State.wr_mgmt (s : State) (o : Nat) (v : W32) : (s.wr o v).mgmt = s.mgmt := rfl
@[simp] theorem State.wr_jtag (s : State) (o : Nat) (v : W32) : (s.wr o v).jtag = s.jtag := rfl

/-! `State.setF` changes regs alone. -/
@[simp] theorem State.setF_pending (s : State) (f : Fld) (v : Nat) : (s.setF f v).pending = s.pending := rfl
@[simp] theorem State.setF_mem (s : State) (f : Fld) (v : Nat) : (s.setF f v).mem = s.mem := rfl
@[simp] theorem State.setF_fresh (s : State) (f : Fld) (v : Nat) : (s.setF f v).fresh = s.fresh := rfl
@[simp] theorem State.setF_events (s : State) (f : Fld) (v : Nat) : (s.setF f v).events = s.events := rfl
@[simp] theorem State.setF_phase (s : State) (f : Fld) (v : Nat) : (s.setF f v).phase = s.phase := rfl
@[simp] theorem State.setF_pace (s : State) (f : Fld) (v : Nat) : (s.setF f v).pace = s.pace := rfl
@[simp] theorem State.setF_cores (s : State) (f : Fld) (v : Nat) : (s.setF f v).cores = s.cores := rfl
@[simp] theorem State.setF_teams (s : State) (f : Fld) (v : Nat) : (s.setF f v).teams = s.teams := rfl
@[simp] theorem State.setF_objs (s : State) (f : Fld) (v : Nat) : (s.setF f v).objs = s.objs := rfl
@[simp] theorem State.setF_stabLoad (s : State) (f : Fld) (v : Nat) : (s.setF f v).stabLoad = s.stabLoad := rfl
@[simp] theorem State.setF_keys (s : State) (f : Fld) (v : Nat) : (s.setF f v).keys = s.keys := rfl
@[simp] theorem State.setF_errPlace (s : State) (f : Fld) (v : Nat) : (s.setF f v).errPlace = s.errPlace := rfl
@[simp] theorem State.setF_copies (s : State) (f : Fld) (v : Nat) : (s.setF f v).copies = s.copies := rfl
@[simp] theorem State.setF_gddrFails (s : State) (f : Fld) (v : Nat) : (s.setF f v).gddrFails = s.gddrFails := rfl
@[simp] theorem State.setF_kvFree (s : State) (f : Fld) (v : Nat) : (s.setF f v).kvFree = s.kvFree := rfl
@[simp] theorem State.setF_kvPushes (s : State) (f : Fld) (v : Nat) : (s.setF f v).kvPushes = s.kvPushes := rfl
@[simp] theorem State.setF_kvTaken (s : State) (f : Fld) (v : Nat) : (s.setF f v).kvTaken = s.kvTaken := rfl
@[simp] theorem State.setF_kvReuse (s : State) (f : Fld) (v : Nat) : (s.setF f v).kvReuse = s.kvReuse := rfl
@[simp] theorem State.setF_ue (s : State) (f : Fld) (v : Nat) : (s.setF f v).ue = s.ue := rfl
@[simp] theorem State.setF_tdis (s : State) (f : Fld) (v : Nat) : (s.setF f v).tdis = s.tdis := rfl
@[simp] theorem State.setF_jobs (s : State) (f : Fld) (v : Nat) : (s.setF f v).jobs = s.jobs := rfl
@[simp] theorem State.setF_nextJob (s : State) (f : Fld) (v : Nat) : (s.setF f v).nextJob = s.nextJob := rfl
@[simp] theorem State.setF_deferred (s : State) (f : Fld) (v : Nat) : (s.setF f v).deferred = s.deferred := rfl
@[simp] theorem State.setF_rings (s : State) (f : Fld) (v : Nat) : (s.setF f v).rings = s.rings := rfl
@[simp] theorem State.setF_msix (s : State) (f : Fld) (v : Nat) : (s.setF f v).msix = s.msix := rfl
@[simp] theorem State.setF_irqs (s : State) (f : Fld) (v : Nat) : (s.setF f v).irqs = s.irqs := rfl
@[simp] theorem State.setF_frameEpoch (s : State) (f : Fld) (v : Nat) : (s.setF f v).frameEpoch = s.frameEpoch := rfl
@[simp] theorem State.setF_fences (s : State) (f : Fld) (v : Nat) : (s.setF f v).fences = s.fences := rfl
@[simp] theorem State.setF_parts (s : State) (f : Fld) (v : Nat) : (s.setF f v).parts = s.parts := rfl
@[simp] theorem State.setF_budget (s : State) (f : Fld) (v : Nat) : (s.setF f v).budget = s.budget := rfl
@[simp] theorem State.setF_profNext (s : State) (f : Fld) (v : Nat) : (s.setF f v).profNext = s.profNext := rfl
@[simp] theorem State.setF_profBase (s : State) (f : Fld) (v : Nat) : (s.setF f v).profBase = s.profBase := rfl
@[simp] theorem State.setF_sigs (s : State) (f : Fld) (v : Nat) : (s.setF f v).sigs = s.sigs := rfl
@[simp] theorem State.setF_outcomes (s : State) (f : Fld) (v : Nat) : (s.setF f v).outcomes = s.outcomes := rfl
@[simp] theorem State.setF_rein (s : State) (f : Fld) (v : Nat) : (s.setF f v).rein = s.rein := rfl
@[simp] theorem State.setF_vis (s : State) (f : Fld) (v : Nat) : (s.setF f v).vis = s.vis := rfl
@[simp] theorem State.setF_fab (s : State) (f : Fld) (v : Nat) : (s.setF f v).fab = s.fab := rfl
@[simp] theorem State.setF_fuses (s : State) (f : Fld) (v : Nat) : (s.setF f v).fuses = s.fuses := rfl
@[simp] theorem State.setF_bootFuses (s : State) (f : Fld) (v : Nat) : (s.setF f v).bootFuses = s.bootFuses := rfl
@[simp] theorem State.setF_flash (s : State) (f : Fld) (v : Nat) : (s.setF f v).flash = s.flash := rfl
@[simp] theorem State.setF_aon (s : State) (f : Fld) (v : Nat) : (s.setF f v).aon = s.aon := rfl
@[simp] theorem State.setF_assay (s : State) (f : Fld) (v : Nat) : (s.setF f v).assay = s.assay := rfl
@[simp] theorem State.setF_hcore (s : State) (f : Fld) (v : Nat) : (s.setF f v).hcore = s.hcore := rfl
@[simp] theorem State.setF_spdm (s : State) (f : Fld) (v : Nat) : (s.setF f v).spdm = s.spdm := rfl
@[simp] theorem State.setF_ide (s : State) (f : Fld) (v : Nat) : (s.setF f v).ide = s.ide := rfl
@[simp] theorem State.setF_tdiNonce (s : State) (f : Fld) (v : Nat) : (s.setF f v).tdiNonce = s.tdiNonce := rfl
@[simp] theorem State.setF_doe (s : State) (f : Fld) (v : Nat) : (s.setF f v).doe = s.doe := rfl
@[simp] theorem State.setF_mgmt (s : State) (f : Fld) (v : Nat) : (s.setF f v).mgmt = s.mgmt := rfl
@[simp] theorem State.setF_jtag (s : State) (f : Fld) (v : Nat) : (s.setF f v).jtag = s.jtag := rfl

/-! `State.raise` changes regs alone. -/
@[simp] theorem State.raise_pending (s : State) (f : Fld) : (s.raise f).pending = s.pending := rfl
@[simp] theorem State.raise_mem (s : State) (f : Fld) : (s.raise f).mem = s.mem := rfl
@[simp] theorem State.raise_fresh (s : State) (f : Fld) : (s.raise f).fresh = s.fresh := rfl
@[simp] theorem State.raise_events (s : State) (f : Fld) : (s.raise f).events = s.events := rfl
@[simp] theorem State.raise_phase (s : State) (f : Fld) : (s.raise f).phase = s.phase := rfl
@[simp] theorem State.raise_pace (s : State) (f : Fld) : (s.raise f).pace = s.pace := rfl
@[simp] theorem State.raise_cores (s : State) (f : Fld) : (s.raise f).cores = s.cores := rfl
@[simp] theorem State.raise_teams (s : State) (f : Fld) : (s.raise f).teams = s.teams := rfl
@[simp] theorem State.raise_objs (s : State) (f : Fld) : (s.raise f).objs = s.objs := rfl
@[simp] theorem State.raise_stabLoad (s : State) (f : Fld) : (s.raise f).stabLoad = s.stabLoad := rfl
@[simp] theorem State.raise_keys (s : State) (f : Fld) : (s.raise f).keys = s.keys := rfl
@[simp] theorem State.raise_errPlace (s : State) (f : Fld) : (s.raise f).errPlace = s.errPlace := rfl
@[simp] theorem State.raise_copies (s : State) (f : Fld) : (s.raise f).copies = s.copies := rfl
@[simp] theorem State.raise_gddrFails (s : State) (f : Fld) : (s.raise f).gddrFails = s.gddrFails := rfl
@[simp] theorem State.raise_kvFree (s : State) (f : Fld) : (s.raise f).kvFree = s.kvFree := rfl
@[simp] theorem State.raise_kvPushes (s : State) (f : Fld) : (s.raise f).kvPushes = s.kvPushes := rfl
@[simp] theorem State.raise_kvTaken (s : State) (f : Fld) : (s.raise f).kvTaken = s.kvTaken := rfl
@[simp] theorem State.raise_kvReuse (s : State) (f : Fld) : (s.raise f).kvReuse = s.kvReuse := rfl
@[simp] theorem State.raise_ue (s : State) (f : Fld) : (s.raise f).ue = s.ue := rfl
@[simp] theorem State.raise_tdis (s : State) (f : Fld) : (s.raise f).tdis = s.tdis := rfl
@[simp] theorem State.raise_jobs (s : State) (f : Fld) : (s.raise f).jobs = s.jobs := rfl
@[simp] theorem State.raise_nextJob (s : State) (f : Fld) : (s.raise f).nextJob = s.nextJob := rfl
@[simp] theorem State.raise_deferred (s : State) (f : Fld) : (s.raise f).deferred = s.deferred := rfl
@[simp] theorem State.raise_rings (s : State) (f : Fld) : (s.raise f).rings = s.rings := rfl
@[simp] theorem State.raise_msix (s : State) (f : Fld) : (s.raise f).msix = s.msix := rfl
@[simp] theorem State.raise_irqs (s : State) (f : Fld) : (s.raise f).irqs = s.irqs := rfl
@[simp] theorem State.raise_frameEpoch (s : State) (f : Fld) : (s.raise f).frameEpoch = s.frameEpoch := rfl
@[simp] theorem State.raise_fences (s : State) (f : Fld) : (s.raise f).fences = s.fences := rfl
@[simp] theorem State.raise_parts (s : State) (f : Fld) : (s.raise f).parts = s.parts := rfl
@[simp] theorem State.raise_budget (s : State) (f : Fld) : (s.raise f).budget = s.budget := rfl
@[simp] theorem State.raise_profNext (s : State) (f : Fld) : (s.raise f).profNext = s.profNext := rfl
@[simp] theorem State.raise_profBase (s : State) (f : Fld) : (s.raise f).profBase = s.profBase := rfl
@[simp] theorem State.raise_sigs (s : State) (f : Fld) : (s.raise f).sigs = s.sigs := rfl
@[simp] theorem State.raise_outcomes (s : State) (f : Fld) : (s.raise f).outcomes = s.outcomes := rfl
@[simp] theorem State.raise_rein (s : State) (f : Fld) : (s.raise f).rein = s.rein := rfl
@[simp] theorem State.raise_vis (s : State) (f : Fld) : (s.raise f).vis = s.vis := rfl
@[simp] theorem State.raise_fab (s : State) (f : Fld) : (s.raise f).fab = s.fab := rfl
@[simp] theorem State.raise_fuses (s : State) (f : Fld) : (s.raise f).fuses = s.fuses := rfl
@[simp] theorem State.raise_bootFuses (s : State) (f : Fld) : (s.raise f).bootFuses = s.bootFuses := rfl
@[simp] theorem State.raise_flash (s : State) (f : Fld) : (s.raise f).flash = s.flash := rfl
@[simp] theorem State.raise_aon (s : State) (f : Fld) : (s.raise f).aon = s.aon := rfl
@[simp] theorem State.raise_assay (s : State) (f : Fld) : (s.raise f).assay = s.assay := rfl
@[simp] theorem State.raise_hcore (s : State) (f : Fld) : (s.raise f).hcore = s.hcore := rfl
@[simp] theorem State.raise_spdm (s : State) (f : Fld) : (s.raise f).spdm = s.spdm := rfl
@[simp] theorem State.raise_ide (s : State) (f : Fld) : (s.raise f).ide = s.ide := rfl
@[simp] theorem State.raise_tdiNonce (s : State) (f : Fld) : (s.raise f).tdiNonce = s.tdiNonce := rfl
@[simp] theorem State.raise_doe (s : State) (f : Fld) : (s.raise f).doe = s.doe := rfl
@[simp] theorem State.raise_mgmt (s : State) (f : Fld) : (s.raise f).mgmt = s.mgmt := rfl
@[simp] theorem State.raise_jtag (s : State) (f : Fld) : (s.raise f).jtag = s.jtag := rfl

/-! `State.addF` changes regs alone. -/
@[simp] theorem State.addF_pending (s : State) (f : Fld) (v : Nat) : (s.addF f v).pending = s.pending := rfl
@[simp] theorem State.addF_mem (s : State) (f : Fld) (v : Nat) : (s.addF f v).mem = s.mem := rfl
@[simp] theorem State.addF_fresh (s : State) (f : Fld) (v : Nat) : (s.addF f v).fresh = s.fresh := rfl
@[simp] theorem State.addF_events (s : State) (f : Fld) (v : Nat) : (s.addF f v).events = s.events := rfl
@[simp] theorem State.addF_phase (s : State) (f : Fld) (v : Nat) : (s.addF f v).phase = s.phase := rfl
@[simp] theorem State.addF_pace (s : State) (f : Fld) (v : Nat) : (s.addF f v).pace = s.pace := rfl
@[simp] theorem State.addF_cores (s : State) (f : Fld) (v : Nat) : (s.addF f v).cores = s.cores := rfl
@[simp] theorem State.addF_teams (s : State) (f : Fld) (v : Nat) : (s.addF f v).teams = s.teams := rfl
@[simp] theorem State.addF_objs (s : State) (f : Fld) (v : Nat) : (s.addF f v).objs = s.objs := rfl
@[simp] theorem State.addF_stabLoad (s : State) (f : Fld) (v : Nat) : (s.addF f v).stabLoad = s.stabLoad := rfl
@[simp] theorem State.addF_keys (s : State) (f : Fld) (v : Nat) : (s.addF f v).keys = s.keys := rfl
@[simp] theorem State.addF_errPlace (s : State) (f : Fld) (v : Nat) : (s.addF f v).errPlace = s.errPlace := rfl
@[simp] theorem State.addF_copies (s : State) (f : Fld) (v : Nat) : (s.addF f v).copies = s.copies := rfl
@[simp] theorem State.addF_gddrFails (s : State) (f : Fld) (v : Nat) : (s.addF f v).gddrFails = s.gddrFails := rfl
@[simp] theorem State.addF_kvFree (s : State) (f : Fld) (v : Nat) : (s.addF f v).kvFree = s.kvFree := rfl
@[simp] theorem State.addF_kvPushes (s : State) (f : Fld) (v : Nat) : (s.addF f v).kvPushes = s.kvPushes := rfl
@[simp] theorem State.addF_kvTaken (s : State) (f : Fld) (v : Nat) : (s.addF f v).kvTaken = s.kvTaken := rfl
@[simp] theorem State.addF_kvReuse (s : State) (f : Fld) (v : Nat) : (s.addF f v).kvReuse = s.kvReuse := rfl
@[simp] theorem State.addF_ue (s : State) (f : Fld) (v : Nat) : (s.addF f v).ue = s.ue := rfl
@[simp] theorem State.addF_tdis (s : State) (f : Fld) (v : Nat) : (s.addF f v).tdis = s.tdis := rfl
@[simp] theorem State.addF_jobs (s : State) (f : Fld) (v : Nat) : (s.addF f v).jobs = s.jobs := rfl
@[simp] theorem State.addF_nextJob (s : State) (f : Fld) (v : Nat) : (s.addF f v).nextJob = s.nextJob := rfl
@[simp] theorem State.addF_deferred (s : State) (f : Fld) (v : Nat) : (s.addF f v).deferred = s.deferred := rfl
@[simp] theorem State.addF_rings (s : State) (f : Fld) (v : Nat) : (s.addF f v).rings = s.rings := rfl
@[simp] theorem State.addF_msix (s : State) (f : Fld) (v : Nat) : (s.addF f v).msix = s.msix := rfl
@[simp] theorem State.addF_irqs (s : State) (f : Fld) (v : Nat) : (s.addF f v).irqs = s.irqs := rfl
@[simp] theorem State.addF_frameEpoch (s : State) (f : Fld) (v : Nat) : (s.addF f v).frameEpoch = s.frameEpoch := rfl
@[simp] theorem State.addF_fences (s : State) (f : Fld) (v : Nat) : (s.addF f v).fences = s.fences := rfl
@[simp] theorem State.addF_parts (s : State) (f : Fld) (v : Nat) : (s.addF f v).parts = s.parts := rfl
@[simp] theorem State.addF_budget (s : State) (f : Fld) (v : Nat) : (s.addF f v).budget = s.budget := rfl
@[simp] theorem State.addF_profNext (s : State) (f : Fld) (v : Nat) : (s.addF f v).profNext = s.profNext := rfl
@[simp] theorem State.addF_profBase (s : State) (f : Fld) (v : Nat) : (s.addF f v).profBase = s.profBase := rfl
@[simp] theorem State.addF_sigs (s : State) (f : Fld) (v : Nat) : (s.addF f v).sigs = s.sigs := rfl
@[simp] theorem State.addF_outcomes (s : State) (f : Fld) (v : Nat) : (s.addF f v).outcomes = s.outcomes := rfl
@[simp] theorem State.addF_rein (s : State) (f : Fld) (v : Nat) : (s.addF f v).rein = s.rein := rfl
@[simp] theorem State.addF_vis (s : State) (f : Fld) (v : Nat) : (s.addF f v).vis = s.vis := rfl
@[simp] theorem State.addF_fab (s : State) (f : Fld) (v : Nat) : (s.addF f v).fab = s.fab := rfl
@[simp] theorem State.addF_fuses (s : State) (f : Fld) (v : Nat) : (s.addF f v).fuses = s.fuses := rfl
@[simp] theorem State.addF_bootFuses (s : State) (f : Fld) (v : Nat) : (s.addF f v).bootFuses = s.bootFuses := rfl
@[simp] theorem State.addF_flash (s : State) (f : Fld) (v : Nat) : (s.addF f v).flash = s.flash := rfl
@[simp] theorem State.addF_aon (s : State) (f : Fld) (v : Nat) : (s.addF f v).aon = s.aon := rfl
@[simp] theorem State.addF_assay (s : State) (f : Fld) (v : Nat) : (s.addF f v).assay = s.assay := rfl
@[simp] theorem State.addF_hcore (s : State) (f : Fld) (v : Nat) : (s.addF f v).hcore = s.hcore := rfl
@[simp] theorem State.addF_spdm (s : State) (f : Fld) (v : Nat) : (s.addF f v).spdm = s.spdm := rfl
@[simp] theorem State.addF_ide (s : State) (f : Fld) (v : Nat) : (s.addF f v).ide = s.ide := rfl
@[simp] theorem State.addF_tdiNonce (s : State) (f : Fld) (v : Nat) : (s.addF f v).tdiNonce = s.tdiNonce := rfl
@[simp] theorem State.addF_doe (s : State) (f : Fld) (v : Nat) : (s.addF f v).doe = s.doe := rfl
@[simp] theorem State.addF_mgmt (s : State) (f : Fld) (v : Nat) : (s.addF f v).mgmt = s.mgmt := rfl
@[simp] theorem State.addF_jtag (s : State) (f : Fld) (v : Nat) : (s.addF f v).jtag = s.jtag := rfl

/-! `State.latch` changes events alone. -/
@[simp] theorem State.latch_pending (s : State) (e : Ev) : (s.latch e).pending = s.pending := rfl
@[simp] theorem State.latch_regs (s : State) (e : Ev) : (s.latch e).regs = s.regs := rfl
@[simp] theorem State.latch_mem (s : State) (e : Ev) : (s.latch e).mem = s.mem := rfl
@[simp] theorem State.latch_fresh (s : State) (e : Ev) : (s.latch e).fresh = s.fresh := rfl
@[simp] theorem State.latch_phase (s : State) (e : Ev) : (s.latch e).phase = s.phase := rfl
@[simp] theorem State.latch_pace (s : State) (e : Ev) : (s.latch e).pace = s.pace := rfl
@[simp] theorem State.latch_cores (s : State) (e : Ev) : (s.latch e).cores = s.cores := rfl
@[simp] theorem State.latch_teams (s : State) (e : Ev) : (s.latch e).teams = s.teams := rfl
@[simp] theorem State.latch_objs (s : State) (e : Ev) : (s.latch e).objs = s.objs := rfl
@[simp] theorem State.latch_stabLoad (s : State) (e : Ev) : (s.latch e).stabLoad = s.stabLoad := rfl
@[simp] theorem State.latch_keys (s : State) (e : Ev) : (s.latch e).keys = s.keys := rfl
@[simp] theorem State.latch_errPlace (s : State) (e : Ev) : (s.latch e).errPlace = s.errPlace := rfl
@[simp] theorem State.latch_copies (s : State) (e : Ev) : (s.latch e).copies = s.copies := rfl
@[simp] theorem State.latch_gddrFails (s : State) (e : Ev) : (s.latch e).gddrFails = s.gddrFails := rfl
@[simp] theorem State.latch_kvFree (s : State) (e : Ev) : (s.latch e).kvFree = s.kvFree := rfl
@[simp] theorem State.latch_kvPushes (s : State) (e : Ev) : (s.latch e).kvPushes = s.kvPushes := rfl
@[simp] theorem State.latch_kvTaken (s : State) (e : Ev) : (s.latch e).kvTaken = s.kvTaken := rfl
@[simp] theorem State.latch_kvReuse (s : State) (e : Ev) : (s.latch e).kvReuse = s.kvReuse := rfl
@[simp] theorem State.latch_ue (s : State) (e : Ev) : (s.latch e).ue = s.ue := rfl
@[simp] theorem State.latch_tdis (s : State) (e : Ev) : (s.latch e).tdis = s.tdis := rfl
@[simp] theorem State.latch_jobs (s : State) (e : Ev) : (s.latch e).jobs = s.jobs := rfl
@[simp] theorem State.latch_nextJob (s : State) (e : Ev) : (s.latch e).nextJob = s.nextJob := rfl
@[simp] theorem State.latch_deferred (s : State) (e : Ev) : (s.latch e).deferred = s.deferred := rfl
@[simp] theorem State.latch_rings (s : State) (e : Ev) : (s.latch e).rings = s.rings := rfl
@[simp] theorem State.latch_msix (s : State) (e : Ev) : (s.latch e).msix = s.msix := rfl
@[simp] theorem State.latch_irqs (s : State) (e : Ev) : (s.latch e).irqs = s.irqs := rfl
@[simp] theorem State.latch_frameEpoch (s : State) (e : Ev) : (s.latch e).frameEpoch = s.frameEpoch := rfl
@[simp] theorem State.latch_fences (s : State) (e : Ev) : (s.latch e).fences = s.fences := rfl
@[simp] theorem State.latch_parts (s : State) (e : Ev) : (s.latch e).parts = s.parts := rfl
@[simp] theorem State.latch_budget (s : State) (e : Ev) : (s.latch e).budget = s.budget := rfl
@[simp] theorem State.latch_profNext (s : State) (e : Ev) : (s.latch e).profNext = s.profNext := rfl
@[simp] theorem State.latch_profBase (s : State) (e : Ev) : (s.latch e).profBase = s.profBase := rfl
@[simp] theorem State.latch_sigs (s : State) (e : Ev) : (s.latch e).sigs = s.sigs := rfl
@[simp] theorem State.latch_outcomes (s : State) (e : Ev) : (s.latch e).outcomes = s.outcomes := rfl
@[simp] theorem State.latch_rein (s : State) (e : Ev) : (s.latch e).rein = s.rein := rfl
@[simp] theorem State.latch_vis (s : State) (e : Ev) : (s.latch e).vis = s.vis := rfl
@[simp] theorem State.latch_fab (s : State) (e : Ev) : (s.latch e).fab = s.fab := rfl
@[simp] theorem State.latch_fuses (s : State) (e : Ev) : (s.latch e).fuses = s.fuses := rfl
@[simp] theorem State.latch_bootFuses (s : State) (e : Ev) : (s.latch e).bootFuses = s.bootFuses := rfl
@[simp] theorem State.latch_flash (s : State) (e : Ev) : (s.latch e).flash = s.flash := rfl
@[simp] theorem State.latch_aon (s : State) (e : Ev) : (s.latch e).aon = s.aon := rfl
@[simp] theorem State.latch_assay (s : State) (e : Ev) : (s.latch e).assay = s.assay := rfl
@[simp] theorem State.latch_hcore (s : State) (e : Ev) : (s.latch e).hcore = s.hcore := rfl
@[simp] theorem State.latch_spdm (s : State) (e : Ev) : (s.latch e).spdm = s.spdm := rfl
@[simp] theorem State.latch_ide (s : State) (e : Ev) : (s.latch e).ide = s.ide := rfl
@[simp] theorem State.latch_tdiNonce (s : State) (e : Ev) : (s.latch e).tdiNonce = s.tdiNonce := rfl
@[simp] theorem State.latch_doe (s : State) (e : Ev) : (s.latch e).doe = s.doe := rfl
@[simp] theorem State.latch_mgmt (s : State) (e : Ev) : (s.latch e).mgmt = s.mgmt := rfl
@[simp] theorem State.latch_jtag (s : State) (e : Ev) : (s.latch e).jtag = s.jtag := rfl

/-! `State.used1` changes fresh alone. -/
@[simp] theorem State.used1_pending (s : State) : (s.used1).pending = s.pending := rfl
@[simp] theorem State.used1_regs (s : State) : (s.used1).regs = s.regs := rfl
@[simp] theorem State.used1_mem (s : State) : (s.used1).mem = s.mem := rfl
@[simp] theorem State.used1_events (s : State) : (s.used1).events = s.events := rfl
@[simp] theorem State.used1_phase (s : State) : (s.used1).phase = s.phase := rfl
@[simp] theorem State.used1_pace (s : State) : (s.used1).pace = s.pace := rfl
@[simp] theorem State.used1_cores (s : State) : (s.used1).cores = s.cores := rfl
@[simp] theorem State.used1_teams (s : State) : (s.used1).teams = s.teams := rfl
@[simp] theorem State.used1_objs (s : State) : (s.used1).objs = s.objs := rfl
@[simp] theorem State.used1_stabLoad (s : State) : (s.used1).stabLoad = s.stabLoad := rfl
@[simp] theorem State.used1_keys (s : State) : (s.used1).keys = s.keys := rfl
@[simp] theorem State.used1_errPlace (s : State) : (s.used1).errPlace = s.errPlace := rfl
@[simp] theorem State.used1_copies (s : State) : (s.used1).copies = s.copies := rfl
@[simp] theorem State.used1_gddrFails (s : State) : (s.used1).gddrFails = s.gddrFails := rfl
@[simp] theorem State.used1_kvFree (s : State) : (s.used1).kvFree = s.kvFree := rfl
@[simp] theorem State.used1_kvPushes (s : State) : (s.used1).kvPushes = s.kvPushes := rfl
@[simp] theorem State.used1_kvTaken (s : State) : (s.used1).kvTaken = s.kvTaken := rfl
@[simp] theorem State.used1_kvReuse (s : State) : (s.used1).kvReuse = s.kvReuse := rfl
@[simp] theorem State.used1_ue (s : State) : (s.used1).ue = s.ue := rfl
@[simp] theorem State.used1_tdis (s : State) : (s.used1).tdis = s.tdis := rfl
@[simp] theorem State.used1_jobs (s : State) : (s.used1).jobs = s.jobs := rfl
@[simp] theorem State.used1_nextJob (s : State) : (s.used1).nextJob = s.nextJob := rfl
@[simp] theorem State.used1_deferred (s : State) : (s.used1).deferred = s.deferred := rfl
@[simp] theorem State.used1_rings (s : State) : (s.used1).rings = s.rings := rfl
@[simp] theorem State.used1_msix (s : State) : (s.used1).msix = s.msix := rfl
@[simp] theorem State.used1_irqs (s : State) : (s.used1).irqs = s.irqs := rfl
@[simp] theorem State.used1_frameEpoch (s : State) : (s.used1).frameEpoch = s.frameEpoch := rfl
@[simp] theorem State.used1_fences (s : State) : (s.used1).fences = s.fences := rfl
@[simp] theorem State.used1_parts (s : State) : (s.used1).parts = s.parts := rfl
@[simp] theorem State.used1_budget (s : State) : (s.used1).budget = s.budget := rfl
@[simp] theorem State.used1_profNext (s : State) : (s.used1).profNext = s.profNext := rfl
@[simp] theorem State.used1_profBase (s : State) : (s.used1).profBase = s.profBase := rfl
@[simp] theorem State.used1_sigs (s : State) : (s.used1).sigs = s.sigs := rfl
@[simp] theorem State.used1_outcomes (s : State) : (s.used1).outcomes = s.outcomes := rfl
@[simp] theorem State.used1_rein (s : State) : (s.used1).rein = s.rein := rfl
@[simp] theorem State.used1_vis (s : State) : (s.used1).vis = s.vis := rfl
@[simp] theorem State.used1_fab (s : State) : (s.used1).fab = s.fab := rfl
@[simp] theorem State.used1_fuses (s : State) : (s.used1).fuses = s.fuses := rfl
@[simp] theorem State.used1_bootFuses (s : State) : (s.used1).bootFuses = s.bootFuses := rfl
@[simp] theorem State.used1_flash (s : State) : (s.used1).flash = s.flash := rfl
@[simp] theorem State.used1_aon (s : State) : (s.used1).aon = s.aon := rfl
@[simp] theorem State.used1_assay (s : State) : (s.used1).assay = s.assay := rfl
@[simp] theorem State.used1_hcore (s : State) : (s.used1).hcore = s.hcore := rfl
@[simp] theorem State.used1_spdm (s : State) : (s.used1).spdm = s.spdm := rfl
@[simp] theorem State.used1_ide (s : State) : (s.used1).ide = s.ide := rfl
@[simp] theorem State.used1_tdiNonce (s : State) : (s.used1).tdiNonce = s.tdiNonce := rfl
@[simp] theorem State.used1_doe (s : State) : (s.used1).doe = s.doe := rfl
@[simp] theorem State.used1_mgmt (s : State) : (s.used1).mgmt = s.mgmt := rfl
@[simp] theorem State.used1_jtag (s : State) : (s.used1).jtag = s.jtag := rfl

/-! `State.st8` changes mem alone. -/
@[simp] theorem State.st8_pending (s : State) (a v : Nat) : (s.st8 a v).pending = s.pending := rfl
@[simp] theorem State.st8_regs (s : State) (a v : Nat) : (s.st8 a v).regs = s.regs := rfl
@[simp] theorem State.st8_fresh (s : State) (a v : Nat) : (s.st8 a v).fresh = s.fresh := rfl
@[simp] theorem State.st8_events (s : State) (a v : Nat) : (s.st8 a v).events = s.events := rfl
@[simp] theorem State.st8_phase (s : State) (a v : Nat) : (s.st8 a v).phase = s.phase := rfl
@[simp] theorem State.st8_pace (s : State) (a v : Nat) : (s.st8 a v).pace = s.pace := rfl
@[simp] theorem State.st8_cores (s : State) (a v : Nat) : (s.st8 a v).cores = s.cores := rfl
@[simp] theorem State.st8_teams (s : State) (a v : Nat) : (s.st8 a v).teams = s.teams := rfl
@[simp] theorem State.st8_objs (s : State) (a v : Nat) : (s.st8 a v).objs = s.objs := rfl
@[simp] theorem State.st8_stabLoad (s : State) (a v : Nat) : (s.st8 a v).stabLoad = s.stabLoad := rfl
@[simp] theorem State.st8_keys (s : State) (a v : Nat) : (s.st8 a v).keys = s.keys := rfl
@[simp] theorem State.st8_errPlace (s : State) (a v : Nat) : (s.st8 a v).errPlace = s.errPlace := rfl
@[simp] theorem State.st8_copies (s : State) (a v : Nat) : (s.st8 a v).copies = s.copies := rfl
@[simp] theorem State.st8_gddrFails (s : State) (a v : Nat) : (s.st8 a v).gddrFails = s.gddrFails := rfl
@[simp] theorem State.st8_kvFree (s : State) (a v : Nat) : (s.st8 a v).kvFree = s.kvFree := rfl
@[simp] theorem State.st8_kvPushes (s : State) (a v : Nat) : (s.st8 a v).kvPushes = s.kvPushes := rfl
@[simp] theorem State.st8_kvTaken (s : State) (a v : Nat) : (s.st8 a v).kvTaken = s.kvTaken := rfl
@[simp] theorem State.st8_kvReuse (s : State) (a v : Nat) : (s.st8 a v).kvReuse = s.kvReuse := rfl
@[simp] theorem State.st8_ue (s : State) (a v : Nat) : (s.st8 a v).ue = s.ue := rfl
@[simp] theorem State.st8_tdis (s : State) (a v : Nat) : (s.st8 a v).tdis = s.tdis := rfl
@[simp] theorem State.st8_jobs (s : State) (a v : Nat) : (s.st8 a v).jobs = s.jobs := rfl
@[simp] theorem State.st8_nextJob (s : State) (a v : Nat) : (s.st8 a v).nextJob = s.nextJob := rfl
@[simp] theorem State.st8_deferred (s : State) (a v : Nat) : (s.st8 a v).deferred = s.deferred := rfl
@[simp] theorem State.st8_rings (s : State) (a v : Nat) : (s.st8 a v).rings = s.rings := rfl
@[simp] theorem State.st8_msix (s : State) (a v : Nat) : (s.st8 a v).msix = s.msix := rfl
@[simp] theorem State.st8_irqs (s : State) (a v : Nat) : (s.st8 a v).irqs = s.irqs := rfl
@[simp] theorem State.st8_frameEpoch (s : State) (a v : Nat) : (s.st8 a v).frameEpoch = s.frameEpoch := rfl
@[simp] theorem State.st8_fences (s : State) (a v : Nat) : (s.st8 a v).fences = s.fences := rfl
@[simp] theorem State.st8_parts (s : State) (a v : Nat) : (s.st8 a v).parts = s.parts := rfl
@[simp] theorem State.st8_budget (s : State) (a v : Nat) : (s.st8 a v).budget = s.budget := rfl
@[simp] theorem State.st8_profNext (s : State) (a v : Nat) : (s.st8 a v).profNext = s.profNext := rfl
@[simp] theorem State.st8_profBase (s : State) (a v : Nat) : (s.st8 a v).profBase = s.profBase := rfl
@[simp] theorem State.st8_sigs (s : State) (a v : Nat) : (s.st8 a v).sigs = s.sigs := rfl
@[simp] theorem State.st8_outcomes (s : State) (a v : Nat) : (s.st8 a v).outcomes = s.outcomes := rfl
@[simp] theorem State.st8_rein (s : State) (a v : Nat) : (s.st8 a v).rein = s.rein := rfl
@[simp] theorem State.st8_vis (s : State) (a v : Nat) : (s.st8 a v).vis = s.vis := rfl
@[simp] theorem State.st8_fab (s : State) (a v : Nat) : (s.st8 a v).fab = s.fab := rfl
@[simp] theorem State.st8_fuses (s : State) (a v : Nat) : (s.st8 a v).fuses = s.fuses := rfl
@[simp] theorem State.st8_bootFuses (s : State) (a v : Nat) : (s.st8 a v).bootFuses = s.bootFuses := rfl
@[simp] theorem State.st8_flash (s : State) (a v : Nat) : (s.st8 a v).flash = s.flash := rfl
@[simp] theorem State.st8_aon (s : State) (a v : Nat) : (s.st8 a v).aon = s.aon := rfl
@[simp] theorem State.st8_assay (s : State) (a v : Nat) : (s.st8 a v).assay = s.assay := rfl
@[simp] theorem State.st8_hcore (s : State) (a v : Nat) : (s.st8 a v).hcore = s.hcore := rfl
@[simp] theorem State.st8_spdm (s : State) (a v : Nat) : (s.st8 a v).spdm = s.spdm := rfl
@[simp] theorem State.st8_ide (s : State) (a v : Nat) : (s.st8 a v).ide = s.ide := rfl
@[simp] theorem State.st8_tdiNonce (s : State) (a v : Nat) : (s.st8 a v).tdiNonce = s.tdiNonce := rfl
@[simp] theorem State.st8_doe (s : State) (a v : Nat) : (s.st8 a v).doe = s.doe := rfl
@[simp] theorem State.st8_mgmt (s : State) (a v : Nat) : (s.st8 a v).mgmt = s.mgmt := rfl
@[simp] theorem State.st8_jtag (s : State) (a v : Nat) : (s.st8 a v).jtag = s.jtag := rfl

/-! `State.zeroMem` changes mem alone. -/
@[simp] theorem State.zeroMem_pending (s : State) (a b : Nat) : (s.zeroMem a b).pending = s.pending := rfl
@[simp] theorem State.zeroMem_regs (s : State) (a b : Nat) : (s.zeroMem a b).regs = s.regs := rfl
@[simp] theorem State.zeroMem_fresh (s : State) (a b : Nat) : (s.zeroMem a b).fresh = s.fresh := rfl
@[simp] theorem State.zeroMem_events (s : State) (a b : Nat) : (s.zeroMem a b).events = s.events := rfl
@[simp] theorem State.zeroMem_phase (s : State) (a b : Nat) : (s.zeroMem a b).phase = s.phase := rfl
@[simp] theorem State.zeroMem_pace (s : State) (a b : Nat) : (s.zeroMem a b).pace = s.pace := rfl
@[simp] theorem State.zeroMem_cores (s : State) (a b : Nat) : (s.zeroMem a b).cores = s.cores := rfl
@[simp] theorem State.zeroMem_teams (s : State) (a b : Nat) : (s.zeroMem a b).teams = s.teams := rfl
@[simp] theorem State.zeroMem_objs (s : State) (a b : Nat) : (s.zeroMem a b).objs = s.objs := rfl
@[simp] theorem State.zeroMem_stabLoad (s : State) (a b : Nat) : (s.zeroMem a b).stabLoad = s.stabLoad := rfl
@[simp] theorem State.zeroMem_keys (s : State) (a b : Nat) : (s.zeroMem a b).keys = s.keys := rfl
@[simp] theorem State.zeroMem_errPlace (s : State) (a b : Nat) : (s.zeroMem a b).errPlace = s.errPlace := rfl
@[simp] theorem State.zeroMem_copies (s : State) (a b : Nat) : (s.zeroMem a b).copies = s.copies := rfl
@[simp] theorem State.zeroMem_gddrFails (s : State) (a b : Nat) : (s.zeroMem a b).gddrFails = s.gddrFails := rfl
@[simp] theorem State.zeroMem_kvFree (s : State) (a b : Nat) : (s.zeroMem a b).kvFree = s.kvFree := rfl
@[simp] theorem State.zeroMem_kvPushes (s : State) (a b : Nat) : (s.zeroMem a b).kvPushes = s.kvPushes := rfl
@[simp] theorem State.zeroMem_kvTaken (s : State) (a b : Nat) : (s.zeroMem a b).kvTaken = s.kvTaken := rfl
@[simp] theorem State.zeroMem_kvReuse (s : State) (a b : Nat) : (s.zeroMem a b).kvReuse = s.kvReuse := rfl
@[simp] theorem State.zeroMem_ue (s : State) (a b : Nat) : (s.zeroMem a b).ue = s.ue := rfl
@[simp] theorem State.zeroMem_tdis (s : State) (a b : Nat) : (s.zeroMem a b).tdis = s.tdis := rfl
@[simp] theorem State.zeroMem_jobs (s : State) (a b : Nat) : (s.zeroMem a b).jobs = s.jobs := rfl
@[simp] theorem State.zeroMem_nextJob (s : State) (a b : Nat) : (s.zeroMem a b).nextJob = s.nextJob := rfl
@[simp] theorem State.zeroMem_deferred (s : State) (a b : Nat) : (s.zeroMem a b).deferred = s.deferred := rfl
@[simp] theorem State.zeroMem_rings (s : State) (a b : Nat) : (s.zeroMem a b).rings = s.rings := rfl
@[simp] theorem State.zeroMem_msix (s : State) (a b : Nat) : (s.zeroMem a b).msix = s.msix := rfl
@[simp] theorem State.zeroMem_irqs (s : State) (a b : Nat) : (s.zeroMem a b).irqs = s.irqs := rfl
@[simp] theorem State.zeroMem_frameEpoch (s : State) (a b : Nat) : (s.zeroMem a b).frameEpoch = s.frameEpoch := rfl
@[simp] theorem State.zeroMem_fences (s : State) (a b : Nat) : (s.zeroMem a b).fences = s.fences := rfl
@[simp] theorem State.zeroMem_parts (s : State) (a b : Nat) : (s.zeroMem a b).parts = s.parts := rfl
@[simp] theorem State.zeroMem_budget (s : State) (a b : Nat) : (s.zeroMem a b).budget = s.budget := rfl
@[simp] theorem State.zeroMem_profNext (s : State) (a b : Nat) : (s.zeroMem a b).profNext = s.profNext := rfl
@[simp] theorem State.zeroMem_profBase (s : State) (a b : Nat) : (s.zeroMem a b).profBase = s.profBase := rfl
@[simp] theorem State.zeroMem_sigs (s : State) (a b : Nat) : (s.zeroMem a b).sigs = s.sigs := rfl
@[simp] theorem State.zeroMem_outcomes (s : State) (a b : Nat) : (s.zeroMem a b).outcomes = s.outcomes := rfl
@[simp] theorem State.zeroMem_rein (s : State) (a b : Nat) : (s.zeroMem a b).rein = s.rein := rfl
@[simp] theorem State.zeroMem_vis (s : State) (a b : Nat) : (s.zeroMem a b).vis = s.vis := rfl
@[simp] theorem State.zeroMem_fab (s : State) (a b : Nat) : (s.zeroMem a b).fab = s.fab := rfl
@[simp] theorem State.zeroMem_fuses (s : State) (a b : Nat) : (s.zeroMem a b).fuses = s.fuses := rfl
@[simp] theorem State.zeroMem_bootFuses (s : State) (a b : Nat) : (s.zeroMem a b).bootFuses = s.bootFuses := rfl
@[simp] theorem State.zeroMem_flash (s : State) (a b : Nat) : (s.zeroMem a b).flash = s.flash := rfl
@[simp] theorem State.zeroMem_aon (s : State) (a b : Nat) : (s.zeroMem a b).aon = s.aon := rfl
@[simp] theorem State.zeroMem_assay (s : State) (a b : Nat) : (s.zeroMem a b).assay = s.assay := rfl
@[simp] theorem State.zeroMem_hcore (s : State) (a b : Nat) : (s.zeroMem a b).hcore = s.hcore := rfl
@[simp] theorem State.zeroMem_spdm (s : State) (a b : Nat) : (s.zeroMem a b).spdm = s.spdm := rfl
@[simp] theorem State.zeroMem_ide (s : State) (a b : Nat) : (s.zeroMem a b).ide = s.ide := rfl
@[simp] theorem State.zeroMem_tdiNonce (s : State) (a b : Nat) : (s.zeroMem a b).tdiNonce = s.tdiNonce := rfl
@[simp] theorem State.zeroMem_doe (s : State) (a b : Nat) : (s.zeroMem a b).doe = s.doe := rfl
@[simp] theorem State.zeroMem_mgmt (s : State) (a b : Nat) : (s.zeroMem a b).mgmt = s.mgmt := rfl
@[simp] theorem State.zeroMem_jtag (s : State) (a b : Nat) : (s.zeroMem a b).jtag = s.jtag := rfl

end Sys2Proof.Machine
end

