-- ==== Sys2Proof/Laws/Ops.lean ====
section
/-!
SUPPORT. What the shared operations over cores, registers, memory, queues and semaphores can do.
-/
namespace Sys2Proof.Machine

/-! ### Cores and Teams -/

@[simp] theorem State.core_setCore (s : State) (k j : Nat) (c : Core) :
    (s.setCore k c).core j = if j = k then c else s.core j := tget_tset core0 s.cores k j c

@[simp] theorem State.core_modCore (s : State) (k j : Nat) (f : Core → Core) :
    (s.modCore k f).core j = if j = k then f (s.core k) else s.core j := tget_tset core0 s.cores k j _

@[simp] theorem State.team_setTeam (s : State) (t j : Nat) (x : Team) :
    (s.setTeam t x).team j = if j = t then x else s.team j := tget_tset team0 s.teams t j x

@[simp] theorem State.team_modTeam (s : State) (t j : Nat) (f : Team → Team) :
    (s.modTeam t f).team j = if j = t then f (s.team t) else s.team j := tget_tset team0 s.teams t j _

theorem State.core_congr {s t : State} (h : t.cores = s.cores) (k : Nat) : t.core k = s.core k := by
  simp only [State.core, h]

theorem State.team_congr {s t : State} (h : t.teams = s.teams) (k : Nat) : t.team k = s.team k := by
  simp only [State.team, h]

@[simp] theorem State.team_setCore (s : State) (k j : Nat) (c : Core) : (s.setCore k c).team j = s.team j := rfl
@[simp] theorem State.core_setTeam (s : State) (t j : Nat) (x : Team) : (s.setTeam t x).core j = s.core j := rfl
@[simp] theorem State.core_modTeam (s : State) (t j : Nat) (f : Team → Team) : (s.modTeam t f).core j = s.core j := rfl
@[simp] theorem State.core_setF (s : State) (f : Fld) (v j : Nat) : (s.setF f v).core j = s.core j := rfl
@[simp] theorem State.core_addF (s : State) (f : Fld) (v j : Nat) : (s.addF f v).core j = s.core j := rfl
@[simp] theorem State.core_latch (s : State) (e : Ev) (j : Nat) : (s.latch e).core j = s.core j := rfl
@[simp] theorem State.core_used1 (s : State) (j : Nat) : s.used1.core j = s.core j := rfl
@[simp] theorem State.team_setF (s : State) (f : Fld) (v j : Nat) : (s.setF f v).team j = s.team j := rfl
@[simp] theorem State.team_addF (s : State) (f : Fld) (v j : Nat) : (s.addF f v).team j = s.team j := rfl
@[simp] theorem State.team_latch (s : State) (e : Ev) (j : Nat) : (s.latch e).team j = s.team j := rfl
@[simp] theorem State.team_used1 (s : State) (j : Nat) : s.used1.team j = s.team j := rfl

/-! ### Scalar registers, semaphores, queues -/

/-- S0 reads 0 after any write, a register written reads its value, every other register what it did. -/
theorem Core.S_setS (c : Core) (r i : Nat) (v : W64) :
    (c.setS r v).S i = if i = 0 then 0#64 else if i = r then v else c.S i := by
  by_cases hr : r = 0
  · subst hr; by_cases hi : i = 0 <;> simp [Core.setS, Core.S, hi]
  · by_cases hi : i = 0
    · simp [Core.S, hi]
    · simp [Core.setS, Core.S, hr, hi, tget_tset]

@[simp] theorem Core.S_zero (c : Core) : c.S 0 = 0#64 := by simp [Core.S]

/-- Writing a scalar register changes the registers alone. -/
theorem Core.setS_eq (c : Core) (r : Nat) (v : W64) : c.setS r v = { c with sregs := (c.setS r v).sregs } := by
  unfold Core.setS; split <;> rfl

@[simp] theorem Core.setS_pc (c : Core) (r : Nat) (v : W64) : (c.setS r v).pc = c.pc := by unfold Core.setS; split <;> rfl

theorem Core.sem_setSem (c : Core) (n i v : Nat) : (c.setSem n v).sem i = if i = n then v else c.sem i :=
  tget_tset sem0 c.sems n i v

theorem Core.queue_setQueue (c : Core) (q i : Nat) (x : Queue) :
    (c.setQueue q x).queue i = if i = q then x else c.queue i := tget_tset queue0 c.queues q i x

/-! ### Registers of the register file -/

theorem State.rd_wr (s : State) (o p : Nat) (v : W32) : (s.wr o v).rd p = if p = o then v else s.rd p :=
  tget_tset regReset s.regs o p v

/-- The bits of a word with a field replaced. -/
theorem withField_bit (w : W32) (lo width v i : Nat) (hi : i < 32) : (withField w lo width v).toNat.testBit i =
    if lo ≤ i ∧ i < lo + width then v.testBit (i - lo) else w.toNat.testBit i := by
  show (withField w lo width v).getLsbD i = _
  unfold withField
  simp only [BitVec.getLsbD_or, BitVec.getLsbD_and, BitVec.getLsbD_not, BitVec.getLsbD_ofNat, hi, decide_true,
    Bool.true_and, Nat.testBit_mul_two_pow, Nat.testBit_two_pow_sub_one, Nat.testBit_mod_two_pow]
  show (w.toNat.testBit i && _ || _) = _
  by_cases h1 : lo ≤ i
  · by_cases h2 : i < lo + width
    · have : i - lo < width := by omega
      simp [h1, h2, this]
    · have : ¬ (i - lo < width) := by omega
      simp [h1, h2, this]
  · simp [h1]

theorem fieldOf_bit (w : W32) (lo width i : Nat) :
    (fieldOf w lo width).testBit i = (decide (i < width) && w.toNat.testBit (lo + i)) := by
  rw [fieldOf, Nat.testBit_mod_two_pow, Nat.testBit_div_two_pow, Nat.add_comm]

theorem fieldOf_withField_same (w : W32) (lo width v : Nat) (h : lo + width ≤ 32) :
    fieldOf (withField w lo width v) lo width = v % 2 ^ width := by
  apply Nat.eq_of_testBit_eq
  intro i
  rw [fieldOf_bit, Nat.testBit_mod_two_pow]
  by_cases hi : i < width
  · rw [withField_bit _ _ _ _ _ (by omega), if_pos (by omega)]; simp [hi]
  · simp [hi]

/-- A field written reads its value. -/
theorem State.getF_setF_same (s : State) (f : Fld) (v : Nat) (h : f.lo + f.width ≤ 32) :
    (s.setF f v).getF f = v % 2 ^ f.width := by
  simp [State.getF, State.setF, State.rd_wr, fieldOf_withField_same _ _ _ _ h]

/-- A field of another register reads what it did. -/
theorem State.getF_setF_ne (s : State) (f g : Fld) (v : Nat) (h : g.off ≠ f.off) :
    (s.setF f v).getF g = s.getF g := by simp [State.getF, State.setF, State.rd_wr, h]

theorem State.getF_addF_ne (s : State) (f g : Fld) (v : Nat) (h : g.off ≠ f.off) :
    (s.addF f v).getF g = s.getF g := State.getF_setF_ne s f g _ h

theorem fieldOf_withField_ne (w : W32) (lo width lo' width' v : Nat)
    (hd : lo' + width' ≤ lo ∨ lo + width ≤ lo') :
    fieldOf (withField w lo width v) lo' width' = fieldOf w lo' width' := by
  apply Nat.eq_of_testBit_eq
  intro i
  rw [fieldOf_bit, fieldOf_bit]
  by_cases hi : i < width'
  · by_cases h32 : lo' + i < 32
    · rw [withField_bit _ _ _ _ _ h32, if_neg (by omega)]
    · have hw : ∀ x : W32, x.toNat.testBit (lo' + i) = false := fun x =>
        Nat.testBit_lt_two_pow (Nat.lt_of_lt_of_le x.isLt (Nat.pow_le_pow_right (by omega) (by omega)))
      simp [hw]
  · simp [hi]

/-- Another field of the same register reads what it did. -/
theorem State.getF_setF_other (s : State) (f g : Fld) (v : Nat)
    (hd : g.lo + g.width ≤ f.lo ∨ f.lo + f.width ≤ g.lo) : (s.setF f v).getF g = s.getF g := by
  by_cases h : g.off = f.off
  · simp [State.getF, State.setF, State.rd_wr, h, fieldOf_withField_ne _ _ _ _ _ _ hd]
  · exact State.getF_setF_ne s f g v h

/-! ### Memory -/

theorem State.ld8_st8 (s : State) (a b v : Nat) : (s.st8 a v).ld8 b = if b = a then v % 256 else s.ld8 b := by
  simp only [State.ld8, State.st8, tget_tset]; split <;> simp

theorem State.ld8_congr {s t : State} (h : t.mem = s.mem) (a : Nat) : t.ld8 a = s.ld8 a := by simp only [State.ld8, h]

/-- Storing bytes changes memory alone. -/
theorem State.stBytes_eq (l : List Nat) : ∀ (s : State) (a : Nat), s.stBytes a l = { s with mem := (s.stBytes a l).mem } := by
  induction l with
  | nil => intro s a; rfl
  | cons b l ih => intro s a; simp only [State.stBytes]; rw [ih]; rfl

/-- Storing bytes leaves every other byte. -/
theorem State.ld8_stBytes_ne (l : List Nat) : ∀ (s : State) (a x : Nat), (∀ j, j < l.length → x ≠ a + j) →
    (s.stBytes a l).ld8 x = s.ld8 x := by
  induction l with
  | nil => intro s a x _; rfl
  | cons b l ih =>
    intro s a x h
    simp only [State.stBytes]
    rw [ih, State.ld8_st8, if_neg]
    · have := h 0 (by simp); omega
    · intro j hj; have := h (j + 1) (by simpa using hj); omega

/-- Bytes stored read back. -/
theorem State.ld8_stBytes (l : List Nat) : ∀ (s : State) (a j : Nat) (h : j < l.length),
    (s.stBytes a l).ld8 (a + j) = l[j] % 256 := by
  induction l with
  | nil => intro s a j h; simp at h
  | cons b l ih =>
    intro s a j h
    simp only [State.stBytes]
    cases j with
    | zero =>
      rw [State.ld8_stBytes_ne _ _ _ _ (by intro j _; omega), State.ld8_st8]; simp
    | succ j =>
      have := ih (s.st8 a b) (a + 1) j (by simpa using h)
      rw [show a + (j + 1) = a + 1 + j by omega, this]; simp

theorem leBytes_length (n v : Nat) : (leBytes n v).length = n := by
  induction n generalizing v with
  | zero => rfl
  | succ n ih => simp [leBytes, ih]

theorem leBytes_get (n : Nat) : ∀ (v j : Nat) (h : j < (leBytes n v).length), (leBytes n v)[j] = v / 256 ^ j % 256 := by
  induction n with
  | zero => intro v j h; simp [leBytes] at h
  | succ n ih =>
    intro v j h
    cases j with
    | zero => simp [leBytes]
    | succ j => simp only [leBytes, List.getElem_cons_succ]; rw [ih, Nat.div_div_eq_div_mul, Nat.pow_succ, Nat.mul_comm]

/-! ### The trace, STEP, and the fetch of an instruction -/

/-- A field of a choice of states, where both agree. -/
theorem ite_field {α : Type} (f : State → α) {c : Prop} [Decidable c] {a b : State} {x : α} (ha : f a = x) (hb : f b = x) :
    f (if c then a else b) = x := by
  split
  · exact ha
  · exact hb

/-- What every field set does not touch stays through a trace entry. -/
theorem State.trace_field {α : Type} (f : State → α) (hF : ∀ (s : State) (g : Fld) (v : Nat), f (s.setF g v) = f s)
    (hT : ∀ (s : State) (t : Nat) (g : Team → Team), f (s.modTeam t g) = f s) (hU : ∀ s : State, f s.used1 = f s)
    (s : State) (t core eng ev tag cnt : Nat) : f (s.trace t core eng ev tag cnt) = f s := by
  have hp : ∀ e, f (s.tracePut t e) = f s := fun e => by rw [State.tracePut, hF, hU, hT]
  have hb : ∀ u : State, f (u.traceBp t ev) = f u := fun u => ite_field f (hF ..) rfl
  have hf : ∀ u : State, f (u.traceFull t) = f u := fun u => ite_field f (hF ..) (hF ..)
  refine ite_field f ?_ rfl
  rw [hb]
  exact ite_field f (by rw [hf, hp]) (hp _)

/-! A trace entry changes the Team's trace buffer, its trace registers and the count of free values, and nothing else. -/
@[simp] theorem State.trace_pending (s : State) (t core eng ev tag cnt : Nat) :
    (s.trace t core eng ev tag cnt).pending = s.pending :=
  State.trace_field State.pending State.setF_pending State.modTeam_pending State.used1_pending s ..
@[simp] theorem State.trace_mem (s : State) (t core eng ev tag cnt : Nat) :
    (s.trace t core eng ev tag cnt).mem = s.mem :=
  State.trace_field State.mem State.setF_mem State.modTeam_mem State.used1_mem s ..
@[simp] theorem State.trace_events (s : State) (t core eng ev tag cnt : Nat) :
    (s.trace t core eng ev tag cnt).events = s.events :=
  State.trace_field State.events State.setF_events State.modTeam_events State.used1_events s ..
@[simp] theorem State.trace_phase (s : State) (t core eng ev tag cnt : Nat) :
    (s.trace t core eng ev tag cnt).phase = s.phase :=
  State.trace_field State.phase State.setF_phase State.modTeam_phase State.used1_phase s ..
@[simp] theorem State.trace_pace (s : State) (t core eng ev tag cnt : Nat) :
    (s.trace t core eng ev tag cnt).pace = s.pace :=
  State.trace_field State.pace State.setF_pace State.modTeam_pace State.used1_pace s ..
@[simp] theorem State.trace_cores (s : State) (t core eng ev tag cnt : Nat) :
    (s.trace t core eng ev tag cnt).cores = s.cores :=
  State.trace_field State.cores State.setF_cores State.modTeam_cores State.used1_cores s ..
@[simp] theorem State.trace_objs (s : State) (t core eng ev tag cnt : Nat) :
    (s.trace t core eng ev tag cnt).objs = s.objs :=
  State.trace_field State.objs State.setF_objs State.modTeam_objs State.used1_objs s ..
@[simp] theorem State.trace_stabLoad (s : State) (t core eng ev tag cnt : Nat) :
    (s.trace t core eng ev tag cnt).stabLoad = s.stabLoad :=
  State.trace_field State.stabLoad State.setF_stabLoad State.modTeam_stabLoad State.used1_stabLoad s ..
@[simp] theorem State.trace_keys (s : State) (t core eng ev tag cnt : Nat) :
    (s.trace t core eng ev tag cnt).keys = s.keys :=
  State.trace_field State.keys State.setF_keys State.modTeam_keys State.used1_keys s ..
@[simp] theorem State.trace_errPlace (s : State) (t core eng ev tag cnt : Nat) :
    (s.trace t core eng ev tag cnt).errPlace = s.errPlace :=
  State.trace_field State.errPlace State.setF_errPlace State.modTeam_errPlace State.used1_errPlace s ..
@[simp] theorem State.trace_copies (s : State) (t core eng ev tag cnt : Nat) :
    (s.trace t core eng ev tag cnt).copies = s.copies :=
  State.trace_field State.copies State.setF_copies State.modTeam_copies State.used1_copies s ..
@[simp] theorem State.trace_gddrFails (s : State) (t core eng ev tag cnt : Nat) :
    (s.trace t core eng ev tag cnt).gddrFails = s.gddrFails :=
  State.trace_field State.gddrFails State.setF_gddrFails State.modTeam_gddrFails State.used1_gddrFails s ..
@[simp] theorem State.trace_kvFree (s : State) (t core eng ev tag cnt : Nat) :
    (s.trace t core eng ev tag cnt).kvFree = s.kvFree :=
  State.trace_field State.kvFree State.setF_kvFree State.modTeam_kvFree State.used1_kvFree s ..
@[simp] theorem State.trace_kvReuse (s : State) (t core eng ev tag cnt : Nat) :
    (s.trace t core eng ev tag cnt).kvReuse = s.kvReuse :=
  State.trace_field State.kvReuse State.setF_kvReuse State.modTeam_kvReuse State.used1_kvReuse s ..
@[simp] theorem State.trace_ue (s : State) (t core eng ev tag cnt : Nat) :
    (s.trace t core eng ev tag cnt).ue = s.ue :=
  State.trace_field State.ue State.setF_ue State.modTeam_ue State.used1_ue s ..
@[simp] theorem State.trace_tdis (s : State) (t core eng ev tag cnt : Nat) :
    (s.trace t core eng ev tag cnt).tdis = s.tdis :=
  State.trace_field State.tdis State.setF_tdis State.modTeam_tdis State.used1_tdis s ..
@[simp] theorem State.trace_jobs (s : State) (t core eng ev tag cnt : Nat) :
    (s.trace t core eng ev tag cnt).jobs = s.jobs :=
  State.trace_field State.jobs State.setF_jobs State.modTeam_jobs State.used1_jobs s ..
@[simp] theorem State.trace_nextJob (s : State) (t core eng ev tag cnt : Nat) :
    (s.trace t core eng ev tag cnt).nextJob = s.nextJob :=
  State.trace_field State.nextJob State.setF_nextJob State.modTeam_nextJob State.used1_nextJob s ..
@[simp] theorem State.trace_deferred (s : State) (t core eng ev tag cnt : Nat) :
    (s.trace t core eng ev tag cnt).deferred = s.deferred :=
  State.trace_field State.deferred State.setF_deferred State.modTeam_deferred State.used1_deferred s ..
@[simp] theorem State.trace_rings (s : State) (t core eng ev tag cnt : Nat) :
    (s.trace t core eng ev tag cnt).rings = s.rings :=
  State.trace_field State.rings State.setF_rings State.modTeam_rings State.used1_rings s ..
@[simp] theorem State.trace_msix (s : State) (t core eng ev tag cnt : Nat) :
    (s.trace t core eng ev tag cnt).msix = s.msix :=
  State.trace_field State.msix State.setF_msix State.modTeam_msix State.used1_msix s ..
@[simp] theorem State.trace_irqs (s : State) (t core eng ev tag cnt : Nat) :
    (s.trace t core eng ev tag cnt).irqs = s.irqs :=
  State.trace_field State.irqs State.setF_irqs State.modTeam_irqs State.used1_irqs s ..
@[simp] theorem State.trace_frameEpoch (s : State) (t core eng ev tag cnt : Nat) :
    (s.trace t core eng ev tag cnt).frameEpoch = s.frameEpoch :=
  State.trace_field State.frameEpoch State.setF_frameEpoch State.modTeam_frameEpoch State.used1_frameEpoch s ..
@[simp] theorem State.trace_fences (s : State) (t core eng ev tag cnt : Nat) :
    (s.trace t core eng ev tag cnt).fences = s.fences :=
  State.trace_field State.fences State.setF_fences State.modTeam_fences State.used1_fences s ..
@[simp] theorem State.trace_parts (s : State) (t core eng ev tag cnt : Nat) :
    (s.trace t core eng ev tag cnt).parts = s.parts :=
  State.trace_field State.parts State.setF_parts State.modTeam_parts State.used1_parts s ..
@[simp] theorem State.trace_budget (s : State) (t core eng ev tag cnt : Nat) :
    (s.trace t core eng ev tag cnt).budget = s.budget :=
  State.trace_field State.budget State.setF_budget State.modTeam_budget State.used1_budget s ..
@[simp] theorem State.trace_profNext (s : State) (t core eng ev tag cnt : Nat) :
    (s.trace t core eng ev tag cnt).profNext = s.profNext :=
  State.trace_field State.profNext State.setF_profNext State.modTeam_profNext State.used1_profNext s ..
@[simp] theorem State.trace_profBase (s : State) (t core eng ev tag cnt : Nat) :
    (s.trace t core eng ev tag cnt).profBase = s.profBase :=
  State.trace_field State.profBase State.setF_profBase State.modTeam_profBase State.used1_profBase s ..
@[simp] theorem State.trace_sigs (s : State) (t core eng ev tag cnt : Nat) :
    (s.trace t core eng ev tag cnt).sigs = s.sigs :=
  State.trace_field State.sigs State.setF_sigs State.modTeam_sigs State.used1_sigs s ..
@[simp] theorem State.trace_outcomes (s : State) (t core eng ev tag cnt : Nat) :
    (s.trace t core eng ev tag cnt).outcomes = s.outcomes :=
  State.trace_field State.outcomes State.setF_outcomes State.modTeam_outcomes State.used1_outcomes s ..
@[simp] theorem State.trace_rein (s : State) (t core eng ev tag cnt : Nat) :
    (s.trace t core eng ev tag cnt).rein = s.rein :=
  State.trace_field State.rein State.setF_rein State.modTeam_rein State.used1_rein s ..
@[simp] theorem State.trace_vis (s : State) (t core eng ev tag cnt : Nat) :
    (s.trace t core eng ev tag cnt).vis = s.vis :=
  State.trace_field State.vis State.setF_vis State.modTeam_vis State.used1_vis s ..
@[simp] theorem State.trace_fab (s : State) (t core eng ev tag cnt : Nat) :
    (s.trace t core eng ev tag cnt).fab = s.fab :=
  State.trace_field State.fab State.setF_fab State.modTeam_fab State.used1_fab s ..
@[simp] theorem State.trace_fuses (s : State) (t core eng ev tag cnt : Nat) :
    (s.trace t core eng ev tag cnt).fuses = s.fuses :=
  State.trace_field State.fuses State.setF_fuses State.modTeam_fuses State.used1_fuses s ..
@[simp] theorem State.trace_flash (s : State) (t core eng ev tag cnt : Nat) :
    (s.trace t core eng ev tag cnt).flash = s.flash :=
  State.trace_field State.flash State.setF_flash State.modTeam_flash State.used1_flash s ..
@[simp] theorem State.trace_aon (s : State) (t core eng ev tag cnt : Nat) :
    (s.trace t core eng ev tag cnt).aon = s.aon :=
  State.trace_field State.aon State.setF_aon State.modTeam_aon State.used1_aon s ..
@[simp] theorem State.trace_assay (s : State) (t core eng ev tag cnt : Nat) :
    (s.trace t core eng ev tag cnt).assay = s.assay :=
  State.trace_field State.assay State.setF_assay State.modTeam_assay State.used1_assay s ..
@[simp] theorem State.trace_hcore (s : State) (t core eng ev tag cnt : Nat) :
    (s.trace t core eng ev tag cnt).hcore = s.hcore :=
  State.trace_field State.hcore State.setF_hcore State.modTeam_hcore State.used1_hcore s ..
@[simp] theorem State.trace_spdm (s : State) (t core eng ev tag cnt : Nat) :
    (s.trace t core eng ev tag cnt).spdm = s.spdm :=
  State.trace_field State.spdm State.setF_spdm State.modTeam_spdm State.used1_spdm s ..
@[simp] theorem State.trace_ide (s : State) (t core eng ev tag cnt : Nat) :
    (s.trace t core eng ev tag cnt).ide = s.ide :=
  State.trace_field State.ide State.setF_ide State.modTeam_ide State.used1_ide s ..
@[simp] theorem State.trace_tdiNonce (s : State) (t core eng ev tag cnt : Nat) :
    (s.trace t core eng ev tag cnt).tdiNonce = s.tdiNonce :=
  State.trace_field State.tdiNonce State.setF_tdiNonce State.modTeam_tdiNonce State.used1_tdiNonce s ..
@[simp] theorem State.trace_doe (s : State) (t core eng ev tag cnt : Nat) :
    (s.trace t core eng ev tag cnt).doe = s.doe :=
  State.trace_field State.doe State.setF_doe State.modTeam_doe State.used1_doe s ..
@[simp] theorem State.trace_mgmt (s : State) (t core eng ev tag cnt : Nat) :
    (s.trace t core eng ev tag cnt).mgmt = s.mgmt :=
  State.trace_field State.mgmt State.setF_mgmt State.modTeam_mgmt State.used1_mgmt s ..
@[simp] theorem State.trace_jtag (s : State) (t core eng ev tag cnt : Nat) :
    (s.trace t core eng ev tag cnt).jtag = s.jtag :=
  State.trace_field State.jtag State.setF_jtag State.modTeam_jtag State.used1_jtag s ..

@[simp] theorem State.core_trace (s : State) (t core eng ev tag cnt k : Nat) :
    (s.trace t core eng ev tag cnt).core k = s.core k := State.core_congr (State.trace_cores ..) k

/-- Without a STEP in progress, the end of an instruction changes nothing more. -/
theorem State.stepDone_of_not_stepping (s : State) (k n : Nat) (h : (s.core k).stepping = false) :
    s.stepDone k n = s := by simp [State.stepDone, h]

/-- A stop for the debugger touches the core and its status register alone. -/
theorem State.debugStop_field {α : Type} (f : State → α) (hF : ∀ (s : State) (g : Fld) (v : Nat), f (s.setF g v) = f s)
    (hC : ∀ (s : State) (k : Nat) (g : Core → Core), f (s.modCore k g) = f s) (s : State) (k cause bp code : Nat) :
    f (s.debugStop k cause bp code) = f s := by rw [State.debugStop, hF, hF, hF, hC]

/-- What neither a core, a Team, a register nor the count of free values holds stays at the end of an instruction. -/
theorem State.stepDone_field {α : Type} (f : State → α) (hF : ∀ (s : State) (g : Fld) (v : Nat), f (s.setF g v) = f s)
    (hC : ∀ (s : State) (k : Nat) (g : Core → Core), f (s.modCore k g) = f s)
    (hT : ∀ (s : State) (t : Nat) (g : Team → Team), f (s.modTeam t g) = f s) (hU : ∀ s : State, f s.used1 = f s)
    (s : State) (k n : Nat) : f (s.stepDone k n) = f s :=
  ite_field f (by rw [State.trace_field f hF hT hU, State.debugStop_field f hF hC]) rfl

/-- The end of an instruction never touches memory. -/
@[simp] theorem State.stepDone_mem (s : State) (k n : Nat) : (s.stepDone k n).mem = s.mem :=
  State.stepDone_field State.mem State.setF_mem State.modCore_mem State.modTeam_mem State.used1_mem s k n

/-- A mark on a job touches the jobs alone. -/
theorem State.markJob_field {α : Type} (f : State → α) (hJ : ∀ (s : State) (i : Nat) (x : Job), f (s.setJob i x) = f s)
    (s : State) (k : Nat) (g : Job → Job) : f (s.markJob k g) = f s := by
  unfold State.markJob
  split
  · rfl
  · exact hJ ..

@[simp] theorem State.setJob_mem (s : State) (i : Nat) (x : Job) : (s.setJob i x).mem = s.mem := rfl

/-- A stopping core touches its core, its job, its Team, the trace registers, the count of free values and the events. -/
theorem State.stopCore_field {α : Type} (f : State → α) (hF : ∀ (s : State) (g : Fld) (v : Nat), f (s.setF g v) = f s)
    (hC : ∀ (s : State) (k : Nat) (g : Core → Core), f (s.modCore k g) = f s)
    (hT : ∀ (s : State) (t : Nat) (g : Team → Team), f (s.modTeam t g) = f s) (hU : ∀ s : State, f s.used1 = f s)
    (hL : ∀ (s : State) (e : Ev), f (s.latch e) = f s) (hJ : ∀ (s : State) (i : Nat) (x : Job), f (s.setJob i x) = f s)
    (s : State) (k n : Nat) (g : FaultRec) (ev : Nat) : f (s.stopCore k n g ev) = f s := by
  unfold State.stopCore
  rw [hL, State.trace_field f hF hT hU, hT, hC, State.markJob_field f hJ]

@[simp] theorem State.stopCore_mem (s : State) (k n : Nat) (g : FaultRec) (ev : Nat) : (s.stopCore k n g ev).mem = s.mem :=
  State.stopCore_field State.mem State.setF_mem State.modCore_mem State.modTeam_mem State.used1_mem State.latch_mem
    State.setJob_mem s ..

/-- An instruction that is fetched with its opcode and without a reserved bit does what its body says. -/
theorem teamster_fetches {s : State} {n k : Nat} {w : W64} {opc resv : Nat} {body : State → Nat → Core → W64 → TOut}
    (h : Fetches s n k w) (ho : opcodeOf w = opc) (hr : clearOf w resv = true) :
    teamster n opc resv body s = match body s k (s.core k) w with
      | .done s' => .next (s'.stepDone k n)
      | .stall => .next s
      | .hold s' => .next s'
      | .bad reason detail ev => .next (s.tfault k n (s.core k) reason detail ev)
      | .fail s' reason detail => .next (s'.tfault k n (s.core k) reason detail 3) := by
  have hl := Nat.not_le.mpr h.loaded
  simp only [teamster, h.up, h.slot, h.runs, h.notStopped, h.notWaiting, h.clean, hl, h.word, ho, hr]
  generalize body s k (s.core k) w = r
  cases r <;> simp

/-- A reserved bit faults with ILLEGAL_SHAPE (R125). -/
theorem teamster_reserved {s : State} {n k : Nat} {w : W64} {opc resv : Nat} {body : State → Nat → Core → W64 → TOut}
    (h : Fetches s n k w) (ho : opcodeOf w = opc) (hr : clearOf w resv = false) :
    teamster n opc resv body s = .next (s.tfault k n (s.core k) rIllegalShape (bits w 63 32) 3) := by
  have hl := Nat.not_le.mpr h.loaded
  simp only [teamster, h.up, h.slot, h.runs, h.notStopped, h.notWaiting, h.clean, hl, h.word, ho, hr]
  simp

end Sys2Proof.Machine
end

