-- ==== Sys2Proof/Laws/PerInstr.lean ====
section
/-!
SUPPORT. Families of statements that are made per command. There is none: no family of LAWS.json.
-/
end

