-- ==== Sys2Proof/Machine/Package.lean ====
section
/-!
DEFINITION. The package, the pads and the supplies as far as the spec gives them a value: the names and regions of
the balls, the rails and their good ranges, levels, straps and clocks (R499 to R509, R511 to R518). Voltages are in
µV. No command of the table carries a voltage: a rail that leaves its good range is RAIL_FAULT, one that comes near
its lower limit RAIL_WARNING, a strap an operand of BOOT_START.
-/
namespace Sys2Proof.Machine

/-! ### Balls (R499, R500) -/

def ballLetters : List String := ["A", "B", "C", "D", "E", "F", "G", "H", "J", "K", "L", "M", "N", "P", "T", "U", "V", "W", "Y"]

/-- The name of row `n`, counted from 1. -/
def ballRow (n : Nat) : String :=
  if n ≤ 19 then ballLetters.getD (n - 1) "" else ballLetters.getD ((n - 20) / 19) "" ++ ballLetters.getD ((n - 20) % 19) ""

/-- The name of a ball: its row, then its column. -/
def ballName (row col : Nat) : String := ballRow row ++ toString col

/-- The regions of Table EP-1. -/
inductive BallGroup where
  | gddrWest
  | gddrEast
  | cameras
  | system
  | core
  | pcie
  | ethernet
deriving DecidableEq, Repr

/-- The region of a ball of the 52 by 52 grid; which balls of a region its group does not list, and are VSS, is not
given. -/
def ballGroup (row col : Nat) : Option BallGroup :=
  if row = 0 ∨ 52 < row ∨ col = 0 ∨ 52 < col then none
  else if 39 ≤ row then some (if col ≤ 26 then .pcie else .ethernet)
  else if col ≤ 10 then some .gddrWest
  else if 43 ≤ col then some .gddrEast
  else if row ≤ 6 then some .cameras
  else if row ≤ 10 then some .system
  else some .core

/-- Signal balls, supply balls, and reserved ones of a group. -/
def BallGroup.balls (g : BallGroup) : Nat × Nat × Nat :=
  match g with
  | .gddrWest => (292, 48, 0)
  | .gddrEast => (292, 48, 0)
  | .cameras => (160, 0, 0)
  | .system => (49, 48, 12)
  | .core => (0, 820, 0)
  | .pcie => (67, 36, 0)
  | .ethernet => (34, 36, 0)

/-- The signals of Table EP-2 with their balls; the third is true for a pad of AON. -/
def systemSignals : List (String × Nat × Bool) :=
  [("SYS_REFCLK", 1, false), ("RESET_N", 1, true), ("WAKE_N", 1, true), ("SLEEP_N", 1, true), ("THERMTRIP_N", 1, true), ("BOOT_ERR_N", 1, false),
   ("BOOT_CODE[7:0]", 8, false), ("RECOV_N, COOL_CLASS, MGMT_MODE, MGMT_ADDR[1:0]", 5, false), ("MGMT_SCL, MGMT_SDA", 2, true),
   ("PMB_SCL, PMB_SDA", 2, false), ("VR_ALERT_N", 1, false), ("AVS_CLK, AVS_MDATA, AVS_SDATA", 3, false),
   ("XSPI_CK, XSPI_CS_N, XSPI_DQ[7:0], XSPI_DQS, XSPI_RESET_N", 12, false), ("FLASH_WP_N", 1, false), ("TCK, TMS, TDI, TRST_N; TDO", 5, false),
   ("PACE_IN_P/N; PACE_OUT_P/N", 4, false)]

/-- The balls of a raw camera port are connected on every variant but CY7-E, those of Ethernet port 1 on every one but CY7-S. -/
def State.cameraBalls (s : State) : Bool := decide (s.getF F.GLB_CAP_VIDEO_RAWPORT_PRESENT ≠ 0)
def State.ethBalls (s : State) (f : Nat) : Bool := s.portPresent f

/-! ### Pads (R501, R502, R511) -/

/-- Whether a pad is in its safe state; a pad of AON leaves it with the reset of AON. -/
def State.padSafe (s : State) (aonPad : Bool) : Bool := !aonPad && !s.padsOn

/-- The level that a 1.8 V pad reads; between the two thresholds none is given (Table EP-5). -/
def padLevel (uv : Int) : Option Bool := if 1170000 ≤ uv then some true else if uv ≤ 630000 then some false else none

/-- The levels that a pad drives hold at 4 mA. -/
def padDrives (high : Bool) (uv : Int) : Bool := if high then decide (1350000 ≤ uv) else decide (uv ≤ 400000)

/-! ### Supplies (R503 to R505, R517, R518) -/

inductive Rail where
  | core
  | sram
  | aon
  | io18
  | serdes085
  | serdes12
  | vddq
deriving DecidableEq, Repr

/-- The voltage that a rail is meant to have: the commanded one for VDD_CORE, and the part's for VDDQ. -/
def Rail.nominal (r : Rail) (set : Int) : Int :=
  match r with
  | .core => set
  | .sram => 750000
  | .aon => 800000
  | .io18 => 1800000
  | .serdes085 => 850000
  | .serdes12 => 1200000
  | .vddq => set

/-- The operating range (Table EP-3). -/
def Rail.operating (r : Rail) (set : Int) : Int × Int :=
  match r with
  | .core => (set - 15000, set + 15000)
  | .sram => (727500, 772500)
  | .aon => (776000, 824000)
  | .io18 => (1710000, 1890000)
  | .serdes085 => (824500, 875500)
  | .serdes12 => (1164000, 1236000)
  | .vddq => (set - set * 3 / 100, set + set * 3 / 100)

/-- The good range, by which the device holds reset (R385, R386). -/
def Rail.good (r : Rail) (set : Int) : Int × Int :=
  match r with
  | .core => (600000, 950000)
  | .sram => (700000, 800000)
  | .aon => (750000, 850000)
  | .io18 => (1620000, 1980000)
  | .serdes085 => (800000, 900000)
  | .serdes12 => (1130000, 1270000)
  | .vddq => (set - set * 6 / 100, set + set * 6 / 100)

/-- The most that a rail bears, and the least (Table EP-10). -/
def Rail.absolute (r : Rail) : Int × Int :=
  match r with
  | .core => (-300000, 1050000)
  | .sram => (-300000, 1000000)
  | .aon => (-300000, 1000000)
  | .io18 => (-300000, 2200000)
  | .serdes085 => (-300000, 1050000)
  | .serdes12 => (-300000, 1600000)
  | .vddq => (-300000, 1600000)

/-- Thermal and electrical design current, in mA. -/
def Rail.current (r : Rail) : Nat × Nat :=
  match r with
  | .core => (320000, 460000)
  | .sram => (45000, 60000)
  | .aon => (2500, 3000)
  | .io18 => (3000, 4000)
  | .serdes085 => (24000, 30000)
  | .serdes12 => (6000, 8000)
  | .vddq => (6000, 8000)

inductive RailState where
  | off
  | notGood
  | good
deriving DecidableEq, Repr

/-- A rail below 10 % of its nominal value is off, and out of its good range it is not good (R504). -/
def Rail.state (r : Rail) (set uv : Int) : RailState :=
  if 10 * uv < r.nominal set then .off else if (r.good set).1 ≤ uv ∧ uv ≤ (r.good set).2 then .good else .notGood

/-- The detector of a rail finds it within 3 % above its lower good limit (R445). -/
def Rail.nearLow (r : Rail) (set uv : Int) : Bool := decide ((r.good set).1 ≤ uv ∧ 100 * uv ≤ 103 * (r.good set).1)

/-- The regulator's voltages: 0.80 V at power-on, then steps of 5 mV from 0.65 V to 0.90 V (R446, R505). -/
def vddStep (uv : Nat) : Bool := decide (650000 ≤ uv ∧ uv ≤ 900000 ∧ uv % 5000 = 0)
def vddPowerOn : Nat := 800000

/-! ### Straps and clocks (R507, R509) -/

/-- The level of a strap that the board does not drive: RECOV_N is pulled up, the others down (Table EP-4). -/
def strapPull (recov : Bool) : Bool := recov

/-- Frequency in Hz and accuracy in ppm of SYS_REFCLK, PCIE_REFCLK and ETH_REFCLK (Table EP-5a). -/
def refClocks : List (Nat × Nat) := [(25000000, 20), (100000000, 300), (156250000, 50)]

/-! ### Resets and pins that meet (R508, R522) -/

/-- RESET_N low for `ns` is taken as a reset from 10 µs on; a shorter pulse may be ignored. -/
def resetTaken (ns : Nat) : Option Bool := if 10000 ≤ ns then some true else none

/-- WAKE_N low for `ns` wakes the device from 10 µs on (R455). -/
def wakeTaken (ns : Nat) : Option Bool := if 10000 ≤ ns then some true else none

end Sys2Proof.Machine
end

