-- ==== Sys2Proof/WellFormed.lean ====
section
/-!
DEFINITION. Which commands are well formed: every number names a thing that the device may have (Tables DO-1, DO-7,
TC-1, RL-2 and the register maps). What a variant lacks is a matter of the state, and the meanings say so.
-/
namespace Sys2Proof

/-- A VF is 1 to 63 (R325). -/
def okVf (v : Nat) : Bool := decide (0 < v ∧ v < 64)
def okPort : Port → Bool
  | .vf v => okVf v
  | _ => true
/-- A function: the PF, 0, or a VF. -/
def okFn (v : Nat) : Bool := decide (v < 64)
/-- Logical cores 0 to 63, Teams 0 to 7 (R59, R60). -/
def okCore (n : Nat) : Bool := decide (n < 64)
def okTeam (t : Nat) : Bool := decide (t < 8)
/-- The core of a per-core engine, or the Team of EQ or FQ (Table TC-1). -/
def okUnit (u : Nat) (e : Eng) : Bool := if e = .eq ∨ e = .fq then okTeam u else okCore u
/-- Partitions 0 to 7 (R413), rings (R329), stream and KV contexts (R284, R231), Tally counters (R258). -/
def okPart (p : Nat) : Bool := decide (p < 8)
def okRing (r : Nat) : Bool := decide (r < 16384)
def okCtx (n : Nat) : Bool := decide (n < 4096)
def okDword (d : Nat) : Bool := decide (d < 32)
def okTally (c : Nat) : Bool := decide (c < 256)
/-- Raw ports, decoders and their groups, encoders, Swage engines (R289, R311, R312, R316). -/
def okRaw (p : Nat) : Bool := decide (p < 8)
def okDec (d : Nat) : Bool := decide (d < 16)
def okGroup (g : Nat) : Bool := decide (g < 4)
def okEnc (e : Nat) : Bool := decide (e < 2)
def okSwage (e : Nat) : Bool := decide (e < 4)
/-- GDDR6 channels (R263), droop detectors (R448), PACE timers (Table PT-6). -/
def okChan (c : Nat) : Bool := decide (c < 16)
def okDet (d : Nat) : Bool := decide (d < 96)
def okTimer (n : Nat) : Bool := decide (n < 16)
/-- Fabric ports (R354) and members (R368); bytes of a frame. -/
def okFabPort (f : Nat) : Bool := decide (f < 2)
def okPeer (p : Nat) : Bool := decide (p < 64)
def okBytes (b : List Nat) : Bool := b.all fun x => decide (x < 256)
/-- The fields DTYPE and INST of RAS_CMD (Table RL-7). -/
def okDomain (dtype inst : Nat) : Bool := decide (dtype < 8 ∧ inst < 256)
/-- Pages of the stage 1 window (Table AS-11), firmware components (R484), CFG offsets in BAR0 (Table HQ-1). -/
def okPage (p : Nat) : Bool := decide (p < 40)
def okComp (c : Nat) : Bool := decide (c < 4)
def okCfg (off : Nat) : Bool := decide (off < 0x4000000)
/-- SPDM responders (0 to 63 the functions, 64 the management port), IDE streams, key sets and directions, and
sub-streams (R421, R423). -/
def okPath (f : Nat) : Bool := decide (f < 65)
def okStream (k : Nat) : Bool := decide (k < 17)
def okTwo (x : Nat) : Bool := decide (x < 2)
def okSub (x : Nat) : Bool := decide (x < 8)

/-- A well-formed command. -/
def Instr.wf : Instr → Bool
  | .registerWrite port _ off _ => okPort port && okCfg off
  | .tickEdge _ _ _ => true
  | .pacePeriodWrite port _ => okPort port
  | .paceEnable port _ _ => okPort port
  | .paceDisable port _ _ => okPort port
  | .ptpSync f _ _ => okFabPort f
  | .ptpLockLost f _ => okFabPort f
  | .ptpLost _ => true
  | .paceInEdge _ _ => true
  | .paceInEdgeMissing => true
  | .paceTimerExpire n _ => okTimer n
  | .nop n => okCore n
  | .add n => okCore n
  | .sub n => okCore n
  | .and n => okCore n
  | .or n => okCore n
  | .xor n => okCore n
  | .sll n => okCore n
  | .srl n => okCore n
  | .sra n => okCore n
  | .slt n => okCore n
  | .sltu n => okCore n
  | .addi n => okCore n
  | .andi n => okCore n
  | .ori n => okCore n
  | .xori n => okCore n
  | .slli n => okCore n
  | .srli n => okCore n
  | .srai n => okCore n
  | .slti n => okCore n
  | .sltiu n => okCore n
  | .li n => okCore n
  | .lih n => okCore n
  | .mul n => okCore n
  | .mulh n => okCore n
  | .mulhu n => okCore n
  | .div n => okCore n
  | .divu n => okCore n
  | .rem n => okCore n
  | .remu n => okCore n
  | .ldB n => okCore n
  | .ldH n => okCore n
  | .ldW n => okCore n
  | .ldD n => okCore n
  | .lduB n => okCore n
  | .lduH n => okCore n
  | .lduW n => okCore n
  | .stB n => okCore n
  | .stH n => okCore n
  | .stW n => okCore n
  | .stD n => okCore n
  | .beq n => okCore n
  | .bne n => okCore n
  | .blt n => okCore n
  | .bge n => okCore n
  | .bltu n => okCore n
  | .bgeu n => okCore n
  | .jal n => okCore n
  | .jalr n => okCore n
  | .csrr n => okCore n
  | .csrw n => okCore n
  | .setTag n => okCore n
  | .salloc n => okCore n
  | .sreset n => okCore n
  | .qcfg n => okCore n
  | .qadvT n => okCore n
  | .qadvH n => okCore n
  | .issue n => okCore n
  | .waitSem n => okCore n
  | .waitSatisfied n => okCore n
  | .signalSem n => okCore n
  | .takeTile n => okCore n
  | .halt n => okCore n
  | .brk n => okCore n
  | .mmul n _ => okCore n
  | .guardReplayEnd n _ _ => okCore n
  | .mfree n => okCore n
  | .mdrain n _ => okCore n
  | .xcfg n => okCore n
  | .dmove n => okCore n
  | .kfetch n => okCore n
  | .kappend n => okCore n
  | .econv t => okTeam t
  | .ebox t => okTeam t
  | .enms t => okTeam t
  | .fftc t => okTeam t
  | .vcall n => okCore n
  | .vwin n _ => okCore n
  | .commandComplete u e => okUnit u e
  | .remoteSignalArrive src dst => okCore src && okCore dst
  | .signalOutcomeReturn src dst => okCore src && okCore dst
  | .vectorBundle n => okCore n
  | .vectorResultLand n => okCore n
  | .programLoad port p => okPort port && okPart p
  | .programLoadComplete => true
  | .jobStart n => okCore n
  | .jobCoreComplete n _ => okCore n
  | .coalesceTimeout r => okRing r
  | .gatingComplete t => okTeam t
  | .teamWake t => okTeam t
  | .teamWakeComplete t => okTeam t
  | .arm port t c => okPort port && okTeam t && okTally c
  | .rewind port t c => okPort port && okTeam t && okTally c
  | .disarm port t c => okPort port && okTeam t && okTally c
  | .stabLoad port p => okPort port && okPart p
  | .loadFillComplete p _ => okPart p
  | .stabFree port p => okPort port && okPart p
  | .clearLost port p => okPort port && okPart p
  | .stabQuery port p _ => okPort port && okPart p
  | .migrationCopyComplete p _ _ => okPart p
  | .gddrRetrain c _ => okChan c
  | .gddrCrcFail c _ => okChan c
  | .gddrScrub _ _ => true
  | .sramScrub _ _ _ _ _ _ => true
  | .kvActivate port p x => okPort port && okPart p && okCtx x
  | .kvRelease port p x => okPort port && okPart p && okCtx x
  | .kvReleaseComplete p x => okPart p && okCtx x
  | .kvaFreePush port p _ => okPort port && okPart p
  | .kvaConfigWrite port p _ _ => okPort port && okPart p
  | .activate port n => okPort port && okCtx n
  | .deactivate port n => okPort port && okCtx n
  | .streamCtxWrite port n d _ => okPort port && okCtx n && okDword d
  | .rawFrameOpen p => okRaw p
  | .rawLineStart p => okRaw p
  | .rawFrameClose p _ => okRaw p
  | .rawTimeout p _ => okRaw p
  | .ispFrameComplete p => okRaw p
  | .rawIspCommit port p _ => okPort port && okRaw p
  | .cameraPacket f _ frame => okFabPort f && okBytes frame
  | .packetLossDeclared n _ => okCtx n
  | .accessUnitRelease n _ => okCtx n
  | .decodeStart d _ => okDec d
  | .decodeComplete d _ => okDec d
  | .decoderTimeout d => okDec d
  | .fbRelease port n _ => okPort port && okCtx n
  | .swageJobStart e => okSwage e
  | .swageJobComplete e => okSwage e
  | .encodeStart e => okEnc e
  | .encodeComplete e b => okEnc e && okBytes b
  | .jpegSubmit port _ => okPort port
  | .jpegJobStart => true
  | .jpegJobComplete b => okBytes b
  | .dbSqTail port r _ => okPort port && okRing r
  | .dbCqHead port r _ => okPort port && okRing r
  | .dbAbort port r _ => okPort port && okRing r
  | .descriptorTake r => okRing r
  | .ringEnable port r _ => okPort port && okRing r
  | .ringDisable port r _ => okPort port && okRing r
  | .dispShareWrite port _ _ => okPort port
  | .vfFlr v => okVf v
  | .pfFlr => true
  | .ackMsg f frame => okFabPort f && okBytes frame
  | .dataMsg f frame => okFabPort f && okBytes frame
  | .barrierMsg f frame => okFabPort f && okBytes frame
  | .freqMsg f frame => okFabPort f && okBytes frame
  | .fannMsg f frame => okFabPort f && okBytes frame
  | .membJoin f frame => okFabPort f && okBytes frame
  | .membLeave f frame => okFabPort f && okBytes frame
  | .jfaultMsg f frame => okFabPort f && okBytes frame
  | .hostCoreFrame f frame => okFabPort f && okBytes frame
  | .ackTimer p => okPeer p
  | .retransmitTimeout p _ => okPeer p
  | .portDown f _ => okFabPort f
  | .portUp f => okFabPort f
  | .planeRetry p f => okPeer p && okFabPort f
  | .fabJoin port => okPort port
  | .fabLeave port => okPort port
  | .fabJobTpWrite port _ => okPort port
  | .fabJobArrive port _ => okPort port
  | .fannDeadline _ => true
  | .barrierTimeout _ => true
  | .bcast => true
  | .allreduce => true
  | .halo => true
  | .operationBarrier => true
  | .bootStart _ => true
  | .assayRetry _ => true
  | .coldReset => true
  | .railFault => true
  | .perst => true
  | .loadPage port page => okPort port && okPage page
  | .recovVerify port => okPort port
  | .hostcoreMemCfgWrite port _ => okPort port
  | .flush port => okPort port
  | .invalidate port => okPort port
  | .flushInv port => okPort port
  | .cacheOpComplete => true
  | .partCreate port => okPort port
  | .partRemove port => okPort port
  | .partScrubComplete p => okPart p
  | .bundleImport port => okPort port
  | .bundleDrop port => okPort port
  | .hallmark port => okPort port
  | .fuseRevoke port => okPort port
  | .fuseProgram port => okPort port
  | .fuseFloor port => okPort port
  | .getVersion f => okPath f
  | .getCapabilities f => okPath f
  | .negotiateAlgorithms f _ => okPath f
  | .getDigests f => okPath f
  | .getCertificate f _ => okPath f
  | .spdmChallenge f _ _ => okPath f
  | .getMeasurements f _ _ => okPath f
  | .keyExchange f _ _ => okPath f
  | .spdmFinish f _ _ => okPath f
  | .endSession f _ => okPath f
  | .ideQuery f _ => okPath f
  | .keyProg f _ k kset dir ch _ _ _ => okPath f && okStream k && okTwo kset && okTwo dir && okSub ch
  | .kSetGo f _ k kset dir ch => okPath f && okStream k && okTwo kset && okTwo dir && okSub ch
  | .kSetStop f _ k kset dir ch => okPath f && okStream k && okTwo kset && okTwo dir && okSub ch
  | .getTdispVersion f _ v => okPath f && okFn v
  | .getTdispCapabilities f _ v => okPath f && okFn v
  | .lockInterfaceRequest f _ v => okPath f && okFn v
  | .getDeviceInterfaceReport f _ v => okPath f && okFn v
  | .getDeviceInterfaceState f _ v => okPath f && okFn v
  | .startInterfaceRequest f _ v _ => okPath f && okFn v
  | .stopInterfaceRequest f _ v => okPath f && okFn v
  | .reinGaitWrite port _ => okPort port
  | .voltageRampDone _ => true
  | .reinSample _ _ _ _ => true
  | .fSustRevision _ => true
  | .vrAlert _ => true
  | .avsTimeout _ => true
  | .fSupplyRemoved _ => true
  | .avsUpdate _ _ _ => true
  | .droopDetect d _ => okDet d
  | .stretchEnd d _ _ => okDet d
  | .curbAdapt => true
  | .thermalSample _ _ => true
  | .reinSleep port => okPort port
  | .wakeN => true
  | .wakeTimer => true
  | .rasReset port dtype inst => okPort port && okDomain dtype inst
  | .rasRetire port dtype inst => okPort port && okDomain dtype inst
  | .rasInject port dtype inst => okPort port && okDomain dtype inst
  | .setEndpointId _ => true
  | .getEndpointId => true
  | .getEndpointUuid => true
  | .getMctpVersionSupport _ => true
  | .getMessageTypeSupport => true
  | .getPdr _ => true
  | .sensorReading _ => true
  | .setEventReceiver _ => true
  | .getEffecterValue _ => true
  | .sensorRefresh => true
  | .gaitEffecter _ => true
  | .plSustEffecter _ => true
  | .plFastEffecter _ => true
  | .windowEffecter _ => true
  | .hostLimitEffecter _ => true
  | .resetEffecter => true
  | .domainResetEffecter _ => true
  | .sleepEffecter => true
  | .wakeEffecter => true
  | .wakeTimerEffecter _ => true
  | .requestUpdate => true
  | .passComponentTable c _ => okComp c
  | .updateComponent c _ => okComp c
  | .firmwareTransfer c _ b => okComp c && okBytes b
  | .verifyComplete => true
  | .applyComplete => true
  | .activateFirmware _ => true
  | .updateCancel => true
  | .liveLoad port => okPort port
  | .liveMove port p => okPort port && okPart p
  | .liveCommit port => okPort port
  | .liveAbort port => okPort port
  | .jtagBypass _ => true
  | .jtagIdcode => true
  | .jtagSamplePreload _ _ => true
  | .jtagExtest _ _ => true
  | .jtagClamp => true
  | .jtagHighz => true
  | .jtagAttach => true
  | .jtagDetach => true
  | .dbgaccRead _ => true
  | .dbgaccWrite _ _ => true
  | .tapReset => true
  | .openSession port _ => okPort port
  | .closeSession port => okPort port
  | .debugHalt port n => okPort port && okCore n
  | .resumeCore port n => okPort port && okCore n
  | .stepCore port n => okPort port && okCore n
  | .railWarning _ => true
  | .vddAonLoss => true
  | .rawPixel p _ => okRaw p
  | .bundleCopyComplete => true
  | .decoderGroupPowered g => okGroup g
  | .unassignedOpcode n => okCore n

end Sys2Proof
end

