-- ==== Sys2Proof/Tests/Slice0.lean ====
section
/-!
SUPPORT. The model's own tests: ill-formed commands, states that meet the hypotheses of the statements, and single
steps on small states. Expected results are those of the rules that the comments name, worked out by hand.
-/
namespace Sys2Proof.Tests
set_option Elab.async false
open Sys2Proof.Machine

/-! ### WellFormed: one ill-formed command for each check -/

theorem test_wf_port : Instr.wf (.flush (.vf 0)) = false ∧ Instr.wf (.flush (.vf 64)) = false ∧ Instr.wf (.flush (.vf 63)) = true := by decide
theorem test_wf_core : Instr.wf (.add 64) = false ∧ Instr.wf (.add 63) = true := by decide
theorem test_wf_team : Instr.wf (.fftc 8) = false ∧ Instr.wf (.commandComplete 8 .eq) = false ∧ Instr.wf (.commandComplete 8 .mq) = true := by decide
theorem test_wf_numbers : Instr.wf (.partScrubComplete 8) = false ∧ Instr.wf (.descriptorTake 16384) = false ∧
    Instr.wf (.packetLossDeclared 4096 0) = false ∧ Instr.wf (.arm .pf 0 256) = false ∧ Instr.wf (.streamCtxWrite .pf 0 32 0) = false ∧
    Instr.wf (.paceTimerExpire 16 0) = false ∧ Instr.wf (.vfFlr 64) = false := by decide
theorem test_wf_units : Instr.wf (.rawFrameOpen 8) = false ∧ Instr.wf (.decoderTimeout 16) = false ∧ Instr.wf (.decoderGroupPowered 4) = false ∧
    Instr.wf (.encodeStart 2) = false ∧ Instr.wf (.swageJobStart 4) = false ∧ Instr.wf (.gddrRetrain 16 true) = false ∧
    Instr.wf (.droopDetect 96 0) = false ∧ Instr.wf (.portUp 2) = false ∧ Instr.wf (.ackTimer 64) = false := by decide
theorem test_wf_others : Instr.wf (.hostCoreFrame 0 [256]) = false ∧ Instr.wf (.rasReset .pf 8 0) = false ∧ Instr.wf (.loadPage .pf 40) = false ∧
    Instr.wf (.updateComponent 4 []) = false ∧ Instr.wf (.registerWrite .pf 0 0x4000000 0) = false ∧ Instr.wf (.getVersion 65) = false ∧
    Instr.wf (.keyProg 0 0 17 0 0 0 0 0 0) = false ∧ Instr.wf (.kSetGo 0 0 0 2 0 0) = false ∧ Instr.wf (.kSetStop 0 0 0 0 0 8) = false ∧
    Instr.wf (.getTdispVersion 0 0 64) = false := by decide

/-! ### Small states -/

/-- The device up with its cores, Teams and one partition of all of them. -/
def up : State := { State.reset with phase := .up, parts := [(0, { live := true, teams := 255, gddrSize := 16, sctxCount := 16 })] }
def dev : State := (((up.setF F.GLB_CAP_COMPUTE_TEAM_PRESENT 255).setF F.GLB_CAP_COMPUTE_EDGE_PRESENT 255).setF F.GLB_CAP_COMPUTE_FFT_PRESENT 255).setF
  F.GDDR_STATUS_CAPACITY 1
/-- Core 0 in slot 0. -/
def with0 (c : Core) : State := { dev with cores := [(0, c)] }
/-- A core about to run one word. -/
def runs (w : W64) (c : Core) : State := with0 { c with run := true, nInst := 1, istore := [(0, w)], storeTop := 0x1000 }
def word (op rest : Nat) : W64 := BitVec.ofNat 64 (op * 2 ^ 56 + rest)

def fetchOk (s : State) (n k : Nat) (w : W64) : Bool :=
  decide (s.phase = .up ∧ s.slotOf n = some k ∧ (s.core k).run = true ∧ (s.core k).stopped = false ∧ (s.core k).wait = none ∧
    (s.core k).pc < (s.core k).nInst ∧ (3, (s.core k).pc) ∉ (s.core k).bad ∧ tget sreg0 (s.core k).istore (s.core k).pc = w)

theorem fetches {s : State} {n k : Nat} {w : W64} (h : fetchOk s n k w = true) : Fetches s n k w := by
  simp only [fetchOk, decide_eq_true_eq] at h
  exact ⟨h.1, h.2.1, h.2.2.1, h.2.2.2.1, h.2.2.2.2.1, h.2.2.2.2.2.1, h.2.2.2.2.2.2.1, h.2.2.2.2.2.2.2⟩

/-- A word with nothing but its opcode can be run, and its reserved bits are clear. -/
def plain (op resv : Nat) : Bool :=
  fetchOk (runs (word op 0) {}) 0 0 (word op 0) && decide (opcodeOf (word op 0) = op) && clearOf (word op 0) resv

/-! ### Witnesses: states that meet the hypotheses of the statements, clause by clause -/

theorem witness_StepRunsFront : ({ up with pending := [.nop 0] } : State).pending = .nop 0 :: [] ∧ State.reset.pending = [] := by decide
theorem witness_StepKeepsCanonical : (decide (Memory.wf up.mem = true ∧ tok regReset up.regs = true)) = true := by decide
theorem witness_ExecKeepsQueue (s : State) : ∃ t, exec .wakeN s = .next t := ⟨s.wakeUp, rfl⟩

theorem witness_Fetches : Fetches (runs (word 0 0) {}) 0 0 (word 0 0) := fetches (by decide +kernel)
theorem witness_IntegerInstructions : ((registerWriters.filter fun e => e.2.2.2 = 0).all fun e => plain e.2.1 e.2.2.1) = true ∧
    plain 0 resvNone = true := by decide +kernel
theorem witness_Division : ([0x24, 0x25, 0x26, 0x27].all fun op => plain op resvR && [0#64, 3#64, 0xFFFFFFFFFFFFFFFF#64].all fun b =>
    let w := word op (2 * 2 ^ 46 + 3 * 2 ^ 41)
    let s := runs w { sregs := [(2, 0x8000000000000000#64), (3, b)] }
    fetchOk s 0 0 w && clearOf w resvR && decide ((s.core 0).S (fRS2 w) = b ∧ (s.core 0).S (fRS1 w) = 0x8000000000000000#64)) = true := by
  decide +kernel
theorem witness_LoadsAndStores : ([(0x30, resvI), (0x31, resvI), (0x32, resvI), (0x33, resvI), (0x34, resvI), (0x35, resvI), (0x36, resvI),
    (0x38, resvS), (0x39, resvS), (0x3A, resvS), (0x3B, resvS)].all fun e => [0xFFF, 0x1000].all fun imm =>
    let w := word e.1 imm
    let bad : State := { runs w {} with ue := [(storeBase 0 + 0xF80, 0x80)] }
    fetchOk (runs w {}) 0 0 w && clearOf w e.2 && decide (opcodeOf w = e.1 ∧ (fImmS w).toNat = imm) && !(runs w {}).ueHit (storeBase 0 + 0xFF8) 8 &&
      fetchOk bad 0 0 w && bad.ueHit (storeBase 0 + 0xFF8) 1) = true := by decide +kernel
theorem witness_BranchesAndJumps : ([0x40, 0x41, 0x42, 0x43, 0x44, 0x45].all fun op => plain op resvBranch) = true ∧ plain 0x48 resvJal = true ∧
    ([8191, 8192].all fun imm =>
      let w := word 0x49 imm
      fetchOk (runs w {}) 0 0 w && clearOf w resvI && decide (opcodeOf w = 0x49 ∧ (fImmS w).toNat = imm)) = true := by decide +kernel
theorem witness_CsrsAndTags : ([0x000, 0x001, 0x002, 0x003, 0x010, 0x011, 0x020, 0x021, 0x030, 0x031, 0x040, 0x05F, 0x004, 0x060].all fun num =>
      [(0x50, resvCsrr), (0x51, resvCsrw)].all fun e =>
      let w := word e.1 num
      fetchOk (runs w {}) 0 0 w && clearOf w e.2 && decide (opcodeOf w = e.1 ∧ w.toNat % 4096 = num)) = true ∧ plain 0x52 resvTag = true := by
  decide +kernel
theorem witness_StoreSpace : ([0x17F000, 0x17F001].all fun v =>
      let w := word 0x58 (2 ^ 46)
      let s := runs w { sregs := [(1, BitVec.ofNat 64 v)] }
      fetchOk s 0 0 w && clearOf w resvSalloc && decide (opcodeOf w = 0x58 ∧
        ((s.core 0).storeTop + (((s.core 0).S (fRS1 w)).toNat + 63) / 64 * 64 ≤ 0x180000 ↔ v = 0x17F000))) = true ∧
    ([0x40, 0x41, 0x0, 0x1040].all fun v =>
      let w := word 0x59 (2 ^ 46)
      let s := runs w { sregs := [(1, BitVec.ofNat 64 v)], staticSize := 0x40 }
      fetchOk s 0 0 w && clearOf w resvSreset && decide (opcodeOf w = 0x59 ∧ ((s.core 0).S (fRS1 w)).toNat = v)) = true := by decide +kernel
/-- Words with a reserved bit set, and a target beyond the one word loaded. -/
theorem witness_reserved : ([(0x40, resvBranch), (0x41, resvBranch), (0x42, resvBranch), (0x43, resvBranch), (0x44, resvBranch), (0x45, resvBranch),
      (0x48, resvJal), (0x49, resvI), (0x58, resvSalloc), (0x59, resvSreset)].all fun e =>
      let w := word e.1 (2 ^ 40 + 2 ^ 13)
      fetchOk (runs w {}) 0 0 w && decide (opcodeOf w = e.1) && !clearOf w e.2) = true ∧
    ((runs (word 0x48 5) {}).core 0).nInst ≤ 5 := by decide +kernel
/-- A queue of two 32-byte slots with one element. -/
def oneQ : Core := { queues := [(0, { depth := 2, els := [(32, true)] })] }
theorem witness_QueueInstructions : ([0, 64 * 2 ^ 48, 4097 * 2 ^ 48, 1, 2 ^ 44].all fun d =>
      let w := word 0x60 (2 ^ 46)
      let s := runs w { sregs := [(1, BitVec.ofNat 64 d)] }
      fetchOk s 0 0 w && clearOf w resvQcfg && decide (opcodeOf w = 0x60 ∧
        (qcfgCheck ((s.core 0).S (fRS1 w)) 0 (s.core 0).storeTop = none ↔ (d = 0 ∨ d = 64 * 2 ^ 48)))) = true ∧
    fetchOk (runs (word 0x60 0) oneQ) 0 0 (word 0x60 0) = true ∧ (((runs (word 0x60 0) oneQ).core 0).queue 0).els ≠ [] ∧
    ([0x61, 0x62].all fun op => [0, 1, 2, 4097].all fun m =>
      let w := word op (m * 2 ^ 16)
      let s := runs w oneQ
      fetchOk s 0 0 w && clearOf w resvQadv && decide (opcodeOf w = op ∧ ((s.core 0).queue 0).zc = false ∧ qadvCount (s.core 0) w = m ∧
        ((s.core 0).queue 0).count = 1)) = true := by decide +kernel
theorem witness_WaitAndSignal : ([(0x71, 1), (0x71, 2), (0x72, 65534), (0x72, 65535)].all fun e =>
      let w := word e.1 e.2
      let s := runs w { sems := [(0, 1)] }
      fetchOk s 0 0 w && clearOf w resvY && yLocalResv w && decide (opcodeOf w = e.1 ∧ bit w 55 = false ∧
        yCount (s.core 0) w = e.2 ∧ (s.core 0).sem (bits w 54 49) = 1)) = true ∧
    ([1, 63, 64].all fun t =>
      let w := word 0x72 (2 ^ 55 + t * 2 ^ 16 + 1)
      let s := runs w {}
      fetchOk s 0 0 w && clearOf w resvY && decide (yCount (s.core 0) w = 1 ∧ s.targetCheck 0 t = if t = 64 then some rUnitAbsent else none)) = true := by
  decide +kernel
def waiting0 : State := with0 { run := true, wait := some (0, 1), sems := [(0, 1)] }
theorem witness_WaitSatisfied : waiting0.phase = .up ∧ waiting0.slotOf 0 = some 0 ∧ (waiting0.core 0).run = true ∧ (waiting0.core 0).stopped = false ∧
    (waiting0.core 0).wait = some (0, 1) ∧ 1 ≤ (waiting0.core 0).sem 0 ∧ (waiting0.core 0).stepping = false := by decide +kernel
theorem witness_HaltAndBrk : plain 0xF0 resvNone = true ∧ plain 0xF1 resvBrk = true := by decide +kernel
theorem witness_IllegalInstructions : fetchOk (runs (word 0xFF 0) {}) 0 0 (word 0xFF 0) = true ∧ opcodeOf (word 0xFF 0) ∉ assignedOpcodes ∧
    fetchOk (runs (word 1 1) {}) 0 0 (word 1 1) = true ∧ opcodeOf (word 1 1) = 1 ∧ clearOf (word 1 1) resvR = false ∧
    (with0 { run := true }).slotOf 0 = some 0 ∧ ((with0 { run := true }).core 0).nInst ≤ ((with0 { run := true }).core 0).pc := by decide +kernel
theorem witness_FaultStopsCore : rLengthBounds ≠ rUncorrectable ∧ rLengthBounds ≠ rIntegrity ∧ ((with0 {}).core 0).fault.valid = false ∧
    ((with0 { fault := { valid := true } }).core 0).fault.valid = true := by decide +kernel
theorem witness_ScalarFrame : (registerWriters.all fun e => plain e.2.1 e.2.2.1 &&
      decide (e.2.2.2 = 0 ∨ (lsAddr ((runs (word e.2.1 0) {}).core 0) (word e.2.1 0) e.2.2.2 < 0x1000 ∧
        (runs (word e.2.1 0) {}).ueHit (storeBase 0) e.2.2.2 = false))) = true ∧
    ((runs (word 1 0) {}).core 0).stepping = false := by decide +kernel
/-- The template at 0 is an MFREE of handle 0. -/
def mfreeAt0 : State := (runs (word 0x70 0) {}).stN (storeBase 0 + 7) 1 0x11
/-- The check of the command that ISSUE builds from a template. -/
def issues (s : State) (w : W64) : Option (Nat × Nat) := issueCheck s 0 (s.core 0) 0 (s.buildCmd 0 (s.core 0) w (templateAddr (s.core 0) w))
theorem witness_Issue : plain 0x70 resvIssue = true ∧ patchesOk (word 0x70 0) = true ∧ patchesOk (word 0x70 (7 * 2 ^ 53)) = true ∧
    (let w := word 0x70 (2 ^ 28)
     fetchOk (runs w {}) 0 0 w = true ∧ clearOf w resvIssue = true ∧ patchesOk w = false) ∧
    fetchOk (runs (word 0x70 (7 * 2 ^ 53)) {}) 0 0 (word 0x70 (7 * 2 ^ 53)) = true ∧ clearOf (word 0x70 (7 * 2 ^ 53)) resvIssue = true ∧
    fetchOk mfreeAt0 0 0 (word 0x70 0) = true ∧ mfreeAt0.cqRoom 0 (mfreeAt0.core 0) 0 = true ∧
    templateAddr (mfreeAt0.core 0) (word 0x70 0) + 32 ≤ (mfreeAt0.core 0).storeTop ∧ mfreeAt0.ueHit (storeBase 0) 32 = false ∧
    issues mfreeAt0 (word 0x70 0) = none ∧ (issues (runs (word 0x70 0) {}) (word 0x70 0)).isSome = true ∧
    fetchOk (runs (word 0x70 0) { split := 0#64 }) 0 0 (word 0x70 0) = true ∧
    (runs (word 0x70 0) { split := 0#64 }).cqRoom 0 ((runs (word 0x70 0) { split := 0#64 }).core 0) 0 = false := by decide +kernel
theorem witness_Take : ([0, 2047, 2048].all fun x =>
      let w := word 0x73 x
      let s := runs w { epoch := 1 }
      fetchOk s 0 0 w && clearOf w resvI && decide (opcodeOf w = 0x73 ∧ ((s.core 0).S (fRS1 w) + fImmS w).toNat = x ∧
        (x < 2048 → s.teamPresent (x / 256) = true ∧ s.samePart 0 (8 * (x / 256)) = true ∧ s.teamOn (x / 256) = true))) = true ∧
    ([({ epoch := 1, limit := 1, next := 0 } : TallyCtr), { epoch := 1, limit := 1, next := 1 }, { epoch := 2 }, {}].all fun y =>
      let s := (runs (word 0x73 0) { epoch := 1 }).modTeam 0 fun t => { t with tally := [(0, y)] }
      fetchOk s 0 0 (word 0x73 0) && decide (tget tally0 (s.team 0).tally 0 = y)) = true := by decide +kernel
def aSig : Sig := { src := 0, dst := 1, sem := 2, amount := 1, source := 0, cmdcnt := 0, tag := 0, pc := 0, overflow := false }
def sigTo1 (o : Bool) : State := { dev with cores := [(1, { sems := [(2, if o then 65535 else 1)] })], sigs := [aSig], outcomes := [{ aSig with overflow := o }] }
theorem witness_RemoteSignals : ([true, false].all fun o =>
      let s := sigTo1 o
      decide (s.phase = .up ∧ takeSig 0 1 s.sigs = some (aSig, []) ∧ s.slotOf 1 = some 1 ∧ s.coreFenced 1 = false ∧ s.teamOn (1 / 8) = true ∧
        (65535 < (s.core 1).sem aSig.sem + aSig.amount ↔ o = true) ∧
        s.slotOf 0 = some 0 ∧ takeSig 0 1 s.outcomes = some ({ aSig with overflow := o }, []))) = true ∧
    ((sigTo1 true).setF (F.RAS_LMAP_PRESENT 1) 0).slotOf 1 = none := by decide +kernel

/-- A command of core 0. -/
def cmdOf (w0 w1 w2 w3 : Nat) : Cmd :=
  { w0 := BitVec.ofNat 64 w0, w1 := BitVec.ofNat 64 w1, w2 := BitVec.ofNat 64 w2, w3 := BitVec.ofNat 64 w3, cnt := 1, pc := 0, core := 0 }
def serves0 (s : State) : Bool := decide (s.phase = .up ∧ s.slotOf 0 = some 0)
/-- An MMUL of one row of 2 INT8 elements by 2 columns, kept weights, on array 0 and handle 0, pass `p`. -/
def mmulCmd (p m kk : Nat) : Cmd := cmdOf (0x10 * 2 ^ 56 + 2 ^ 28 + p * 2 ^ 26 + 2 ^ 18) 0 (2 ^ 59 + m * 2 ^ 44 + kk * 2 ^ 36 + 2 * 2 ^ 29 + 2 ^ 26) 0
def mmulSt (p : Nat) : State := (with0 {
  mq := [mmulCmd p 1 2], handles := [(0, [2])], storeTop := 0x1000,
  weights := [3, 4] ++ List.replicate 62 0 ++ [5, 0xFF], acc := [(accKey 0 2 0 0, 100#32)] }).stBytes (storeBase 0) [2, 0xFE]
def mdrainCmd : Cmd := cmdOf (0x12 * 2 ^ 56 + 2 ^ 28) 0 (2 ^ 44) (2 ^ 63 + 2 ^ 13)
def mdrainSt : State := with0 {
  mq := [mdrainCmd], handles := [(0, [2])], intHandles := [0], storeTop := 0x1000,
  acc := [(accKey 0 2 0 0, 0x01020304#32), (accKey 0 2 0 63, 0xFFFFFFFF#32)] }
theorem witness_MatrixRows : ([0, 1].all fun p =>
      let s := mmulSt p
      let cmd := mmulCmd p 1 2
      serves0 s && decide ((s.core 0).actM = none ∧ (s.core 0).mq = [cmd] ∧ s.mayBegin 0 cmd = true ∧ cmd.opc = 0x10 ∧ cmd.keep = true ∧
        cmd.pass = p ∧ cmd.fmt = 0 ∧ cmd.amask = 1 ∧ cmd.mRows = 1 ∧ cmd.kElems = 2 ∧ cmd.nCols = 2 ∧ cmd.abuf = true ∧
        (s.core 0).tiles cmd.handle = [2] ∧ cmd.ntiles = 1 ∧ (s.core 0).bad = [] ∧ (s.core 0).job = none ∧
        s.ueHit (storeBase 0 + arrBuf cmd.w2 0) 64 = false)) = true ∧
    (let s := mdrainSt
     let cmd := mdrainCmd
     serves0 s && decide ((s.core 0).actM = none ∧ (s.core 0).mq = [cmd] ∧ s.mayBegin 0 cmd = true ∧ (s.core 0).landM = [] ∧ cmd.opc = 0x12 ∧
       cmd.amask = 1 ∧ cmd.mRows = 1 ∧ cmd.dbuf = true ∧ (s.core 0).tiles cmd.handle = [2] ∧ cmd.handle ∈ (s.core 0).intHandles ∧
       (s.core 0).cr cmd.xslot = {} ∧ (s.core 0).xq = [] ∧ (s.core 0).actX = none ∧ (s.core 0).bad = [] ∧
       arrBuf cmd.w3 0 + 256 ≤ (s.core 0).storeTop)) = true := by decide +kernel
def mfreeCmd : Cmd := cmdOf (0x11 * 2 ^ 56) 0 0 0
def xcfgCmd : Cmd := cmdOf (0x20 * 2 ^ 56 + 2 ^ 16) 0x100 0 0
def mfreeSt : State := with0 { mq := [mfreeCmd], handles := [(0, [2]), (1, [3])] }
def xcfgSt : State := (with0 { xq := [xcfgCmd], storeTop := 0x1000 }).stN (storeBase 0 + 0x100) 8 0x80F0000000000000
def replaySt : State := with0 { run := true, actM := some { cmd := mmulCmd 0 1 2, prog := [0, 0, 0, 0] }, guard := { replay := true } }
theorem witness_HandlesSlotsGuard :
    (serves0 mfreeSt && decide ((mfreeSt.core 0).actM = none ∧ (mfreeSt.core 0).mq = [mfreeCmd] ∧ mfreeSt.mayBegin 0 mfreeCmd = true ∧
      mfreeCmd.opc = 0x11 ∧ (mfreeSt.core 0).handleBusy mfreeCmd.handle = false)) = true ∧
    (serves0 xcfgSt && decide ((xcfgSt.core 0).actX = none ∧ (xcfgSt.core 0).xq = [xcfgCmd] ∧ xcfgSt.mayBegin 0 xcfgCmd = true ∧
      (xcfgSt.core 0).slotBusy (bits xcfgCmd.w0 17 16) xcfgCmd.cnt = false ∧
      xcfgSt.ueHit (storeBase 0 + bits xcfgCmd.w1 20 0) 128 = false ∧
      checkParamBlock (xcfgSt.core 0).storeTop (xcfgSt.paramBlock 0 (bits xcfgCmd.w1 20 0)).2 (xcfgSt.paramBlock 0 (bits xcfgCmd.w1 20 0)).1 = none)) = true ∧
    (serves0 replaySt && (replaySt.core 0).actM.isSome && (replaySt.core 0).guard.replay) = true := by decide +kernel
/-- A DMOVE of two rows of two bytes: 0x000 (stride 16) to 0x100 (stride 3), and a FILL of the same rows. -/
def dmoveCmd (mode : Nat) : Cmd := cmdOf (0x30 * 2 ^ 56 + mode * 2 ^ 30) (if mode = 3 then 0x0807060504030201 else 0) 0x100
  (16 * 2 ^ 44 + 3 * 2 ^ 24 + 2 * 2 ^ 12 + 2)
def dmoveSt (mode : Nat) : State := (with0 { dq := [dmoveCmd mode], storeTop := 0x1000 }).stBytes (storeBase 0) (List.range 32)
theorem witness_DataMover : ([0, 3].all fun m =>
    let s := dmoveSt m
    let cmd := dmoveCmd m
    serves0 s && decide ((s.core 0).actD = none ∧ (s.core 0).dq = [cmd] ∧ s.mayBegin 0 cmd = true ∧ s.teamOn 0 = true ∧ s.ue = [] ∧
      cmd.dadd = 0 ∧ cmd.drows = 2 ∧ cmd.dlen = 2 ∧ cmd.dlen ≤ cmd.dstride ∧ refOf cmd.w2 = some (.loc 0x100) ∧ cmd.dmode = m ∧
      (m = 0 → refOf cmd.w1 = some (.loc 0) ∧ cmd.drows * cmd.sstride + cmd.dlen ≤ 0x100))) = true := by decide +kernel
/-- A context of one layer of 128 INT8 elements with one token in page 0 of object 5, and a KFETCH or a KAPPEND of one token. -/
def kvCmdOf (op : Nat) : Cmd := cmdOf (op * 2 ^ 56) 0 (2 ^ 32) 0
def kvSt (op : Nat) : State :=
  let s := (with0 {
    actK := some { cmd := kvCmdOf op }, storeTop := 0x1000,
    queues := [(0, { depth := 2, esize := (if op = 0x41 then 3 else 2), els := (if op = 0x41 then [(256, true)] else []) })] }).setObj 0 5 { stage := 2, size := 0x100000, segs := [{ home := some 0x100000 }] }
  (((((s.setF (F.KVA_CTL_BASE_LO_ADDR 0) 0x40).setF (F.KVA_CTX_RANGE_COUNT 0) 1).setF (F.KVA_ARENA_OBJ 0) 5).stN 0x40000 8
    (2 ^ 62 + 2 ^ 58 + 2 ^ 40)).stN 0x40008 8 (2 ^ 47 + 2 ^ 38)).stN 0x40800 8 (pageWord 0 0 0) |>.stN 0x40020 8 (2 ^ 63 + 2 ^ 46 + 2 ^ 5)
    |>.stBytes (storeBase 0) (leBytes 4 0xC0003C00)
theorem witness_KvTokens : ([0x40, 0x41].all fun op =>
    let s := kvSt op
    let a : Active := { cmd := kvCmdOf op }
    let c := s.kvRead 0 0
    serves0 s && decide (s.partOf 0 = 0 ∧ (s.core 0).actK = some a ∧ a.cmd.opc = op ∧ c.fmt = 0 ∧ a.cmd.kscen = false ∧ a.cmd.kctx = 0 ∧
      a.cmd.kcount = 1 ∧ s.kvLayout 0 a.cmd c = (if op = 0x40 then some .whole else some .latents) ∧
      s.kvPlace 0 0 c (c.unit a.cmd.klayer a.cmd.khead a.cmd.kpart) (if op = 0x40 then a.cmd.kfirst else c.len) = some (if op = 0x40 then (0, 3968) else (128, 3970)) ∧
      s.refOff 0 (.object (s.kvArena 0) (if op = 0x40 then 0 else 128)) 0 c.rank = none) &&
    (if op = 0x40 then s.roomAt 0 a.cmd.kdq && !s.ringBad 0 a.cmd.kdq && (match s.rdObj 0 (s.kvArena 0) 0 c.rank false with | .ok b _ => decide (b.length = 128) | _ => false)
     else decide (0 < c.pstored) && match s.popAcc 0 a.cmd.kdq with
      | some (.ok b s1) => (match s1.wrObj 0 (s.kvArena 0) 128 (c.quantise b).1 false with
        | .ok _ s2 => (match s2.wrObj 0 (s.kvArena 0) 3970 (c.quantise b).2 false with
          | .ok _ _ => true
          | _ => false)
        | _ => false)
      | _ => false)) = true := by decide +kernel
def vcallCmd : Cmd := cmdOf (0x70 * 2 ^ 56 + 2 ^ 21) (7 + 2 ^ 32) 9 11
def vcallSt : State := with0 { vq := [vcallCmd], vec := { loops := [{ start := 1, stop := 1, left := 1 }] } }
/-- A bundle of VIADD V2 := V0 + V1. -/
def viadd : BitVec 128 := BitVec.ofNat 128 ((0x20 * 2 ^ 34 + 2 * 2 ^ 28 + 1 * 2 ^ 16) * 2 ^ 44)
def vaddSt : State := with0 { actV := some { cmd := vcallCmd }, nBund := 1, vim := [(0, viadd)], vec := { v := [(0, 0xFFFFFFFF#32), (64, 3#32), (130, 5#32)] } }
def vwinCmd : Cmd := cmdOf (0x71 * 2 ^ 56) 0x100 0 0
def vwinSt : State := ((((with0 { vq := [vwinCmd], storeTop := 0x1000 }).stN (storeBase 0 + 0x108) 8 0x200).stN (storeBase 0 + 0x110) 8 (0x10 * 2 ^ 32)).stN
  (storeBase 0 + 0x118) 8 (3 * 2 ^ 52 + 3 * 2 ^ 40 + 2 ^ 32 + 2 ^ 28)).stBytes (storeBase 0) [1, 2, 3, 4, 5, 6, 7, 8, 9, 0, 0, 0, 0, 0, 0, 0, 1, 1, 1, 1, 0xFF, 1, 1, 1, 1]
theorem witness_VectorEngine :
    (serves0 vcallSt && decide ((vcallSt.core 0).actV = none ∧ (vcallSt.core 0).vq = [vcallCmd] ∧ vcallCmd.opc = 0x70 ∧
      vcallSt.mayBegin 0 vcallCmd = true ∧ (vcallSt.core 0).vec.flights = [])) = true ∧
    (let c := vaddSt.core 0
     let x := slotOfBundle viadd 1
     serves0 vaddSt && decide (c.actV = some { cmd := vcallCmd } ∧ c.vec.ended = false ∧ c.vec.flights = [] ∧ c.vec.loops = [] ∧ c.vec.busy = [] ∧
      c.vec.bundle < c.nBund ∧ c.bad = [] ∧ tget (fun _ => 0#128) c.vim c.vec.bundle = viadd ∧ bundleResv viadd = 0 ∧ slotOfBundle viadd 0 = 0 ∧
      slotOfBundle viadd 2 = 0 ∧ fOp x = 0x20 ∧ slotOk 1 x = true ∧ fVD x = 2 ∧ fVA x = 0 ∧ fVB x = 1)) = true ∧
    (let p := vwinSt.winParam 0 (bits vwinCmd.w1 20 0)
     serves0 vwinSt && decide ((vwinSt.core 0).actV = none ∧ (vwinSt.core 0).vq = [vwinCmd] ∧ vwinCmd.opc = 0x71 ∧ vwinSt.mayBegin 0 vwinCmd = true ∧
      (vwinSt.core 0).vec.flights = [] ∧ vwinSt.ue = [] ∧ vwinSt.checkVwinHead 0 (vwinSt.core 0).storeTop p = none ∧ p.empty = false ∧ p.oh = 1 ∧ p.ow = 1 ∧
      p.out = some (.inl 0x200))) = true := by decide +kernel
/-- A command of core 0 at a Team engine: its descriptor block at 0x100, its parameters at 0x180, input at 0, weights at 0x10, output at 0x200. -/
def teamCmd (op w2 w3 : Nat) : Cmd := cmdOf (op * 2 ^ 56) 0x100 w2 w3
def teamSt (cmd : Cmd) (par : Nat) : State :=
  ((with0 { storeTop := 0x1000 }).modTeam 0 fun t => { t with eq := [cmd], fq := [cmd] }).stBytes (storeBase 0 + 0x100)
    (leBytes 8 0 ++ leBytes 8 0x200 ++ leBytes 8 (if cmd.opc = 0x51 then 0x180 else 0x10) ++ leBytes 8 0x180) |>.stN (storeBase 0 + 0x180) 8 par
    |>.stBytes (storeBase 0) ([2, 3, 4, 5, 6] ++ List.replicate 11 0 ++ [7])
def econvCmd : Cmd := teamCmd 0x50 (2 ^ 52 + 2 ^ 40 + 2 ^ 32 + 2 ^ 24 + 2 ^ 20 + 2 ^ 16) (7 * 2 ^ 44)
def econvSt : State := teamSt econvCmd 0
def eboxCmd : Cmd := teamCmd 0x51 (2 ^ 52 + 2 ^ 40 + 2 ^ 32 + 2 ^ 28) 1
def eboxSt : State := teamSt eboxCmd (0x3F800000 * 2 ^ 32 + 8 * 2 ^ 8)
def enmsCmd : Cmd := teamCmd 0x52 1 1
def enmsSt : State := teamSt enmsCmd 0
def fftCmd : Cmd := cmdOf (0x60 * 2 ^ 56 + 2 ^ 25) 0x400 0x600 1
def fftSt : State := (teamSt fftCmd 0).stBytes (storeBase 0 + 0x400) (leBytes 4 0x3F800000 ++ leBytes 4 0 ++ leBytes 4 0x40000000)
def teamOk (s : State) (cmd : Cmd) : Bool :=
  serves0 s && decide (s.edgePresent 0 = true ∧ s.fftPresent 0 = true ∧ (s.team 0).actE = none ∧ (s.team 0).actF = none ∧
    pickEntry s (s.team 0).eq [] = some cmd ∧ pickEntry s (s.team 0).fq [] = some cmd ∧ s.slotOf cmd.core = some 0 ∧ s.ue = [] ∧
    s.teamOn 0 = true ∧ s.getF (F.TRACE_CTRL_EN 0) = 0)
theorem witness_TeamEngines :
    (let s := econvSt
     let cmd := econvCmd
     let w (j : Nat) : W64 := s.blockWord 0 (bits cmd.w1 20 0) j
     teamOk s cmd && decide (cmd.opc = 0x50 ∧ refOf (w 0) = some (.loc 0) ∧ refOf (w 1) = some (.loc 0x200) ∧ refOf (w 2) = some (.loc 0x10) ∧
       cmd.econvEmpty = false ∧ checkEconvHead s 0 (s.core 0).storeTop cmd (w 0) (w 1) (w 2) (w 3) = none)) = true ∧
    (let s := eboxSt
     let cmd := eboxCmd
     let w (j : Nat) : W64 := s.blockWord 0 (bits cmd.w1 20 0) j
     teamOk s cmd && decide (cmd.opc = 0x51 ∧ refOf (w 0) = some (.loc 0) ∧ refOf (w 1) = some (.loc 0x200) ∧
       cmd.eboxEmpty = false ∧ checkEboxHead s 0 (s.core 0).storeTop cmd (w 0) (w 1) (w 2) = none)) = true ∧
    (let s := enmsSt
     let cmd := enmsCmd
     let w (j : Nat) : W64 := s.blockWord 0 (bits cmd.w1 20 0) j
     teamOk s cmd && decide (cmd.opc = 0x52 ∧ refOf (w 0) = some (.loc 0) ∧ refOf (w 1) = some (.loc 0x200) ∧ cmd.nMAXIN ≠ 0 ∧ cmd.bMAX ≠ 0 ∧
       firstBad [s.refCheck 0 (s.core 0).storeTop (edgeSpaces false) (w 0) (64 + 16 * cmd.nMAXIN),
                s.refCheck 0 (s.core 0).storeTop (edgeSpaces true) (w 1) (64 + 16 * cmd.bMAX)] = none)) = true ∧
    (teamOk fftSt fftCmd && decide (refOf fftCmd.w1 = some (.loc 0x400) ∧ refOf fftCmd.w2 = some (.loc 0x600) ∧ fftCmd.fCOUNT = 1)) = true := by
  decide +kernel
/-- A command that signals semaphore 1 by 5: of its own core, or of core 1. -/
def sigCmd (remote : Bool) (op : Nat) : Cmd := cmdOf (op * 2 ^ 56 + 2 ^ 55 + (if remote then 2 ^ 54 + 2 ^ 32 else 0) + 2 ^ 48 + 5 * 2 ^ 40) 0 0 0
def doneSt (r : Bool) (op : Nat) : State :=
  let a : Active := { cmd := sigCmd r op, full := true }
  (with0 { landD := [a], landM := [a], actX := some a, actV := some a, actK := some a }).modTeam 0 fun t => { t with actE := some a, actF := some a }
theorem witness_CommandComplete : ([true, false].all fun r => [0x11, 0x40].all fun op =>
    let s := doneSt r op
    let a : Active := { cmd := sigCmd r op, full := true }
    serves0 s && decide ((s.core 0).landD = [a] ∧ (s.core 0).landM = [a] ∧ a.cmd.matrixRuns = false ∧ (s.core 0).actX = some a ∧
      (s.core 0).actV = some a ∧ (s.core 0).actK = some a ∧ a.full = true ∧ a.cmd.opc = op ∧ a.cmd.sig = true ∧ a.cmd.rsig = r ∧
      (r = true → a.cmd.rcore = 1) ∧ a.cmd.sigcnt = 5 ∧ (s.core 0).sem a.cmd.sem + a.cmd.sigcnt ≤ 65535 ∧
      s.slotOf a.cmd.core = some 0 ∧ (s.team 0).actE = some a ∧ (s.team 0).actF = some a)) = true := by decide +kernel
/-- Context 0 of partition 0 with STATE `st`, in the control area at 0x40000; object 5 as its arena. -/
def ctxSt (st : Nat) : State :=
  ((((dev.setF (F.KVA_CTL_BASE_LO_ADDR 0) 0x40).setF (F.KVA_CTX_RANGE_COUNT 0) 1).setF (F.KVA_ARENA_OBJ 0) 5).stN 0x40000 8
    (st * 2 ^ 62 + 2 ^ 40)).setObj 0 5 { stage := 2, size := 0x100000, segs := [{ home := some 0x100000 }] }
theorem witness_KvContexts : dev.phase = .up ∧ dev.partPort .pf 0 = true ∧ dev.partPort .mgmt 0 = false ∧
    ([0, 1, 2].all fun st =>
      let s := ctxSt st
      let c := s.kvRead 0 0
      let o := s.obj 0 (s.getF (F.KVA_ARENA_OBJ 0))
      decide (s.phase = .up ∧ s.kvInShare 0 0 = true ∧ c.state = st ∧ c.fieldsOk = true ∧ 0 < c.perPage c.initSz ∧ s.kvInFlight 0 0 = false ∧
        o.stage = 2 ∧ 4096 * (0xF0 + 2 ^ 4) ≤ o.size)) = true := by decide +kernel
def queued64 : State := { dev with events := List.replicate 64 (.tally 0 1 0 0 0) }
theorem witness_TallyCommands : dev.phase = .up ∧ portHost .pf = true ∧ dev.teamPresent 0 = true ∧ dev.teamOn 0 = true ∧ dev.tallyQueued 0 < 64 ∧
    queued64.phase = .up ∧ queued64.teamPresent 0 = true ∧ queued64.teamOn 0 = true ∧ 64 ≤ queued64.tallyQueued 0 ∧
    (dev.setF (F.TEAM_PWR_STATUS_STATE 0) 1).teamPresent 0 = true ∧ (dev.setF (F.TEAM_PWR_STATUS_STATE 0) 1).teamOn 0 = false ∧
    (tget tally0 ((dev.modTeam 0 fun t => { t with tally := [(3, { epoch := 1, limit := 4 })] }).team 0).tally 3) = { epoch := 1, limit := 4 } ∧
    (tget tally0 (dev.team 0).tally 3).epoch = 0 := by decide +kernel
/-- Object 0 of partition 0 as its entry at 0x80000 declares it: 4,096 bytes, readable by every Team. -/
def objSt : State := ((((dev.setF (F.STAB_P_ARENA_SIZE_MIB 0) 8).setF (F.STAB_P_OBJ_BASE_LO_ADDR 0) (0x80000 / 32)).setF (F.STAB_P_OBJ_COUNT_COUNT 0) 1).stN 0x80000 8 (2 ^ 63 + 4096)).stN
  0x80008 8 (255 * 2 ^ 56)
def loadRuns (s : State) (count : Nat) : Option Nat := match s.loadObjs 0 0 count with
  | .ok _ => none
  | .error r => some r
def segSt (x : Obj) : State := dev.setObj 0 0 x
theorem witness_ObjectCommands : dev.stabQueued < 16 ∧ 16 ≤ ({ dev with events := List.replicate 16 (.stab 1 0 0 0) } : State).stabQueued ∧
    loadRuns objSt 1 = none ∧ loadRuns objSt 2 = some rIllegalShape ∧ dev.assay.copying = none ∧
    ((segSt { stage := 2 }).obj 0 0).stage = 2 ∧ ((segSt { lost := true }).obj 0 0).lost = true ∧
    (let x : Obj := { stage := 1, size := 100, segs := [{ home := some 0x100000 }] }
     (segSt x).obj 0 0 = x ∧ x.homes = [(0x100000, 0x10000)] ∧ x.poolUse = [] ∧ x.poolTeams = []) ∧
    (let g : Seg := { home := some 0x100000, move := some (some (poolBase 0)) }
     let x : Obj := { stage := 2, size := 100, segs := [g] }
     ((segSt x).obj 0 0).segs[0]? = some g ∧ g.move.isSome = true ∧ g.base = some 0x100000 ∧ g.copied = false ∧ g.renew = false ∧
       (segSt x).moveHeld g = none ∧ (segSt x).ue = [] ∧
       (let s := (segSt x).setF F.STAB_MIG_BUDGET_BYTES 100
        s.getF F.STAB_MIG_USED_BYTES + x.segLen 0 ≤ s.getF F.STAB_MIG_BUDGET_BYTES)) := by decide +kernel
theorem witness_MemoryUpkeep : ([0, 1].all fun f =>
      let s := { dev.setF (F.GDDR_CH_STATE_CH_c 3) 1 with gddrFails := [(3, f)] }
      decide (s.phase = .up ∧ s.getF (F.GDDR_CH_STATE_CH_c 3) = 1 ∧ tget nat0 s.gddrFails 3 = f)) = true ∧
    (dev.setF (F.GDDR_CH_STATE_CH_c 3) 0).getF (F.GDDR_CH_STATE_CH_c 3) = 0 ∧
    (let s := dev.setF F.GDDR_SCRUB_HOURS 24
     s.getF F.GDDR_SCRUB_HOURS ≠ 0 ∧ 0x40 < s.gddrTop ∧ s.pairOk (gddrPair 0x40) = true ∧ s.ueHit 0x40 64 = false) := by decide +kernel
/-- Ring 0 of the PF, enabled, with 64-entry queues; two descriptors are published. -/
def ringSt : State := ((dev.wr 0x100004 (0x80000000#32 ||| BitVec.ofNat 32 (6 * 2 ^ 16 + 6 * 2 ^ 11))).setF (ringF 0 2 0 32) 0x10000).setF
  (rSQTAIL 0) 2 |>.setF (ringF 0 4 0 32) 0x20000 |>.setF (rCQTAIL 0) 1
theorem witness_Doorbells : ringSt.phase = .up ∧ ringSt.dbPage .pf 0 = true ∧ ringSt.dbPage (.vf 1) 0 = false ∧ dev.dbPage .pf 0 = true ∧ dev.rEN 0 = 0 ∧
    ringSt.rEN 0 ≠ 0 ∧
    ([(2, true), (64, true), (65, false), (1, false)].all fun e =>
      decide (cdiff (ringSt.getF (rSQTAIL 0)) (ringSt.getF (rSQHEAD 0)) ≤ cdiff e.1 (ringSt.getF (rSQHEAD 0)) ∧
        cdiff e.1 (ringSt.getF (rSQHEAD 0)) ≤ ringSt.rSQ 0) == e.2) = true ∧
    ([(0, true), (1, true), (2, false)].all fun e =>
      decide (cdiff (ringSt.getF (rCQTAIL 0)) e.1 ≤ cdiff (ringSt.getF (rCQTAIL 0)) (ringSt.getF (rCQHEAD 0))) == e.2) = true ∧
    dev.enabling 0 = false ∧ (dev.latch (.ringEnable 0 0#32)).enabling 0 = true ∧ (dev.latch (.ringEnable 0 0#32)).rEN 0 = 0 ∧
    ringSt.memBad 0x10000 64 = none ∧ ({ ringSt with ue := [(0x10020, 8)] } : State).memBad 0x10000 64 = some (rUncorrectable, 0x10020) ∧
    (ringSt.ring 0).dropped = [] ∧ ringSt.getF (rSQHEAD 0) ≠ ringSt.getF (rSQTAIL 0) ∧ ringSt.cqRoomFor 0 2 = true ∧ ringSt.descHeld < 16384 ∧
    (ringSt.modRing 0 fun x => { x with resv := 63 }).cqRoomFor 0 2 = false ∧
    ([0#32, 1#32].all fun m =>
      let s := { (ringSt.setF (ringF 0 0 16 16) 5).modRing 0 fun x => { x with unsent := 1 } with msix := [(3, m)] }
      decide ((s.ring 0).unsent ≠ 0 ∧ s.getF (ringF 0 0 16 16) ≠ 0 ∧ (tget msix0 s.msix (128 * s.rOWNER 0 + 4 * s.rVEC 0 + 3)) = m)) = true := by
  decide +kernel
def entryWord : W32 := 0x80000000#32 ||| BitVec.ofNat 32 (6 * 2 ^ 16 + 6 * 2 ^ 11)
theorem witness_RingEntries : ringSt.ringPort .mgmt 0 = false ∧ ringSt.ringPort .pf 0 = true ∧ dev.rEN 0 = 0 ∧ ringSt.rEN 0 = 1 ∧
    (ringSt.setF (rPENDING 0) 1).getF (rPENDING 0) ≠ 0 ∧ (ringSt.setF (rPENDING 0) 1).rEN 0 = 1 ∧
    (let s := ringSt.setF (rSQTAIL 0) 0
     s.rEN 0 = 1 ∧ s.getF (rPENDING 0) = 0 ∧ s.getF (rABORTING 0) = 0 ∧ s.getF (rSQHEAD 0) = s.getF (rSQTAIL 0) ∧
       entryWord ||| 0x80000000#32 = s.rd (0x100000 + 64 * 0 + 4)) ∧
    entryWord.getLsbD 31 = true ∧ (dev.ring 0).early = [] ∧ dev.entryOk 0 entryWord = true ∧ dev.entryOk 0 0x80000000#32 = false := by decide +kernel
/-- A program of one instruction at 0x100000, and its load by partition 0. -/
def progSt : State := ((dev.setF (F.STAB_P_ARENA_SIZE_MIB 0) 8).setF F.DISP_PLOAD_ADDR_LO_ADDR (0x100000 / 64)).stBytes 0x100000
  (leBytes 4 0x4C4E4F58 ++ leBytes 4 1 ++ leBytes 4 1 ++ leBytes 4 0 ++ leBytes 4 0x200 ++ leBytes 4 0x100 ++ leBytes 8 0x0000001020402008 ++
    leBytes 8 0 ++ leBytes 4 (imageNeed 1 0 0x200 1))
def jobSt : State := ((with0 { jobQ := [7], argOff := 0x100, staticSize := 0x200 }).setJob 7 { entry := 3, epoch := 9, argAddr := 0x5000, cores := [0] }).stBytes 0x5000 [1, 2, 3]
def partSt (cores : List Nat) : State := ((with0 { job := some 7, jobSpent := 10 }).setJob 7 { ring := 0, cores := cores, cycles := 5 })
theorem witness_Jobs : portHost .pf = true ∧ (dev.setF F.DISP_PLOAD_STATUS_STATE 1).getF F.DISP_PLOAD_STATUS_STATE = 1 ∧
    dev.getF F.DISP_PLOAD_STATUS_STATE ≠ 1 ∧ dev.events = [] ∧ dev.ploadCheck 0 0 = some rLengthBounds ∧
    progSt.ploadCheck 0 (progSt.getF F.DISP_PLOAD_ADDR_HI_ADDR * 2 ^ 32 + progSt.getF F.DISP_PLOAD_ADDR_LO_ADDR * 64) = none ∧
    (let s := jobSt
     serves0 s = true ∧ (s.core 0).jobQ = [7] ∧ (s.core 0).run = false ∧ (s.core 0).job = none ∧ s.coreQuiet 0 0 = true ∧ s.teamOn 0 = true ∧
       (s.job 7).pen = false ∧ (s.job 7).strm = false ∧ s.memBad (s.job 7).argAddr 256 = none ∧
       ({ s with ue := [(0x5000, 64)] } : State).memBad (s.job 7).argAddr 256 = some (rUncorrectable, 0x5000)) ∧
    ([[0], [0, 1]].all fun l =>
      let s := partSt l
      serves0 s && decide ((s.core 0).job = some 7 ∧ (s.core 0).run = false ∧ s.coreQuiet 0 0 = true ∧ (s.core 0).outstanding = 0 ∧
        (s.core 0).faulted = false ∧ (s.job 7).cores = l)) = true := by decide +kernel
/-- The gait is written with and without the stronger cooling; a sample above the fast limit; a supply that is in trouble. -/
def coolB : State := dev.setF F.REIN_CAP_COOL_B 1
def revSt : State := dev.setRein fun r => { r with buckets := [5000000], den := 100 }
def supSt : State := dev.setRein fun r => { r with fSupply := some 600, supplyAt := 5, ramp := true }
theorem witness_PowerControl : coolB.phase = .up ∧ coolB.getF F.REIN_CAP_COOL_B = 1 ∧ dev.getF F.REIN_CAP_COOL_B = 0 ∧
    dev.rein.fFast = none ∧ dev.plFast * [400000].length < sumNat [400000] ∧ revSt.pace.ticking = false ∧ revSt.mayRevise 0 = true ∧
    supSt.rein.fSupply ≠ none ∧ supSt.rein.supplyAt + 10000000 ≤ 10000005 ∧ supSt.rein.ramp = true := by decide +kernel
def stretchSt : State := dev.setRein fun r => { r with stretch := [3], fires := [(3, 100)] }
def hotSt : State := dev.setRein fun r => { r with tripped := [2] }
def temps (x : Int) : List Int := [0, 0, x] ++ List.replicate 29 200
theorem witness_DroopAndHeat : (max 650 ((700 + dev.thMax + gaitMargin dev.gait + 4) / 5 * 5) ≤ 900) ∧
    900 < max 650 ((880 + dev.thMax + gaitMargin dev.gait + 4) / 5 * 5) ∧ dev.detThere 3 = true ∧ dev.detOn 3 = true ∧ 3 ∈ stretchSt.rein.stretch ∧
    (dev.setF F.CURB_CTRL_ADAPT 0).getF F.CURB_CTRL_ADAPT = 0 ∧ (stretchSt.setF F.CURB_CTRL_ADAPT 1).getF F.CURB_CTRL_ADAPT = 1 ∧
    (stretchSt.setF F.CURB_CTRL_ADAPT 1).getF F.CURB_CTRL_RATE_HI < tget nat0 stretchSt.rein.fires 3 ∧
    (temps 460).length = 32 ∧ (temps 460)[2]? = some 460 ∧ goodTemp 460 = true ∧ hotSt.sensorAbsent 2 = false ∧ 2 ∈ hotSt.rein.tripped ∧
    ((numbered 0 (temps 459)).all fun e => decide (e.2 < 460 ∨ e.1 ∉ hotSt.rein.tripped)) = true := by decide +kernel
def locked : State := dev.setF F.PACE_CTRL_JOB_LOCK 1
def ticking : State := (dev.setF F.PACE_CTRL_ENABLE 1).setPace fun p => { p with ticking := true, tp := 1000, edge := 7 }
def stopping : State := (dev.setF F.PACE_CTRL_ENABLE 0).setPace fun p => { p with ticking := true, stopping := true, tp := 1000, edge := 7 }
def waiting1 : State := (dev.setF F.PACE_CTRL_ENABLE 1).setPace fun p => { p with waiting := true, tp := 1000, edge := 7 }
theorem witness_PaceControl : portHost .pf = true ∧ portHost .mgmt = false ∧ dev.inJob = false ∧ locked.inJob = true ∧
    3000 ≠ locked.getF F.PACE_PERIOD_TP_US ∧
    (dev.ctrlWord (withField 0#32 0 1 1)).isSome = true ∧ dev.pace.ticking = false ∧ dev.pace.waiting = false ∧ dev.pace.stopping = false ∧
    (stopping.ctrlWord (withField (stopping.rd 0x10000) 0 1 1)).isSome = true ∧ stopping.pace.stopping = true ∧
    ([ticking, waiting1].all fun s => (s.ctrlWord (withField (s.rd 0x10000) 0 1 0)).isSome && decide (s.getF F.PACE_CTRL_ENABLE = 1)) = true ∧
    (ticking.setF F.PACE_CTRL_JOB_LOCK 1).inJob = true := by decide +kernel
def ptpSt (q : PtpPort) : State := ((ticking.setF F.PACE_CTRL_SOURCE 1).setF (F.FAB_PORT_STATE 0) 2).setPace fun p =>
  { p with ports := [(0, q)], lostAt := some 5 }
def pinSt (n : Nat) : State := (ticking.setF F.PACE_CTRL_SOURCE 2).setPace fun p => { p with misses := n }
def timerSt : State := (dev.setF (F.PACE_TMR_CTRL_ARM 3) 1).setF (F.PACE_TMR_DL_LO_DL 3) 9
theorem witness_PaceInputs : ([({ good := 15 } : PtpPort), { good := 16, locked := true }].all fun q =>
      let s := ptpSt q
      decide (s.phase = .up ∧ s.portPresent 0 = true ∧ s.getF (F.FAB_PORT_STATE 0) = 2 ∧ s.ptp 0 = q ∧ s.getF F.PACE_CTRL_PTP_PORT ≠ 2 ∧
        s.pace.ticking = true ∧ s.getF F.PACE_CTRL_SOURCE = 1 ∧ s.pace.stepHold = false ∧ s.pace.lostAt = some 5 ∧ s.pace.held = false)) = true ∧
    (let s := ptpSt {}
     s.activePtp = none ∧ s.pace.lostAt = some 5 ∧ s.pace.held = false ∧ s.getF F.PACE_CTRL_SOURCE = 1 ∧ s.pace.ticking = true ∧
       5 + 1000000 * s.getF F.PACE_HOLDOVER_HOLD_MS ≤ 10 ^ 12) ∧
    (pinSt 2).getF F.PACE_CTRL_SOURCE = 2 ∧ (pinSt 2).pace.ticking = true ∧ (pinSt 2).pace.misses = 2 ∧
    (let s := waiting1.setF F.PACE_CTRL_SOURCE 2
     s.getF F.PACE_CTRL_SOURCE = 2 ∧ s.pace.ticking = false ∧ s.pace.waiting = true ∧ s.pace.accepted = none) ∧
    timerSt.phase = .up ∧ timerSt.getF (F.PACE_TMR_CTRL_ARM 3) = 1 ∧
    timerSt.getF (F.PACE_TMR_DL_HI_DL 3) * 2 ^ 32 + timerSt.getF (F.PACE_TMR_DL_LO_DL 3) ≤ 9 := by decide +kernel
theorem witness_TickEdge : ([ticking, stopping, waiting1].all fun s => decide (s.phase = .up ∧ s.getF F.PACE_CTRL_SOURCE = 0 ∧
      s.pace.edge + 1000 * s.pace.tp = 1000007 ∧ (s.pace.ticking = true ∨ s.pace.waiting = true))) = true ∧
    ticking.pace.stopping = false ∧ stopping.pace.stopping = true ∧ waiting1.pace.ticking = false ∧
    dev.slotOf 1 = some 1 ∧ dev.slotOf 0 ≠ some 1 := by decide +kernel
def asleep (p : Phase) : State := { dev with phase := p }
theorem witness_ResetsAndSleep : (asleep .deepSleep).phase = .deepSleep ∧ (asleep .tripped).phase = .tripped ∧ dev.phase ≠ .deepSleep ∧ dev.phase ≠ .tripped ∧
    powerPort (.vf 1) = false ∧ powerPort .pf = true ∧ dev.syncState = 0 ∧ ticking.syncState ≠ 0 ∧
    ((asleep .deepSleep).setF F.REIN_WAKE_TIMER_SECONDS 9).getF F.REIN_WAKE_TIMER_SECONDS ≠ 0 := by decide +kernel
def board : Board := {
  recovN := true, coolB := false, mgmtMode := false, mgmtAddr := 0, fuses := [(0x8C, 1)], fuseCe := false, fuseUe := false,
  flash := [], flashOk := false, slow := [], failed := [], capacity := 0, protect := false, us := 0, now := 0 }
def retrySt : State := { State.reset with aon := { State.reset.aon with retry := true } }
def triedSt : State := { retrySt with aon := { retrySt.aon with tried := [(0, 0x41)] } }
def recov : State := { dev with phase := .recovery }
theorem witness_Boot : State.reset.phase = .coldReset ∧ State.reset.aon.retry = false ∧ (State.reset.strap board).fusesBad = false ∧
    board.fuseUe = false ∧ board.recovN = true ∧ board.flashOk = false ∧ ({ board with recovN := false } : Board).recovN = false ∧
    (State.reset.strap { board with recovN := false }).fusesBad = false ∧
    retrySt.phase = .coldReset ∧ retrySt.aon.retry = true ∧ retrySt.aon.tried = [] ∧
    (triedSt.phase = .coldReset ∧ triedSt.aon.retry = true ∧ triedSt.aon.tried = [(0, 0x41)]) ∧ recov.awaiting = true ∧ Port.drt ≠ .pf := by decide +kernel
theorem witness_SecureStart : State.reset.phase = .coldReset ∧ State.reset.aon.wake = none ∧ State.reset.aon.retry = false ∧
    retrySt.phase = .coldReset ∧ retrySt.aon.wake = none ∧ retrySt.aon.retry = true := by decide
def busySt (op : Nat) (carve : Option W32) : State :=
  { dev.setF F.HOSTCORE_MEM_STATUS_BUSY 1 with hcore := { dev.hcore with op := op, carve := carve, lines := [(hostMem, [1, 2, 3], true)] } }
theorem witness_HostCoreMemory : portHost .pf = true ∧ (busySt 1 none).getF F.HOSTCORE_MEM_STATUS_BUSY = 1 ∧ dev.getF F.HOSTCORE_MEM_STATUS_BUSY = 0 ∧
    dev.carveOk 0x00010001#32 = true ∧
    ([1, 2, 3].all fun op => decide ((busySt op none).phase = .up ∧ (busySt op none).hcore.carve = none ∧ (busySt op none).hcore.op = op ∧
      (busySt op none).hcore.lines = [(hostMem, [1, 2, 3], true)])) = true ∧
    (busySt 0 (some 0x00010001#32)).hcore.carve = some 0x00010001#32 := by decide +kernel
theorem witness_RasCommands : portHost .pf = true ∧ dev.rasRefusal 1 6 0 = some rIllegalShape ∧ dev.rasRefusal 1 0 3 = none ∧ dev.rasRefusal 3 0 3 = none ∧
    (dev.slotOf 3).isSome = true ∧ dev.coreFenced 3 = false := by decide +kernel
theorem witness_RegisterWrites : portHost .pf = true ∧ portHost .mgmt = false ∧ regAt 0x0FFFC = none ∧
    dev.offAbsent 0x10000 = false ∧ (dev.setF F.GLB_CAP_COMPUTE_TEAM_PRESENT 63).offAbsent 0x2800000 = true ∧ (regAt 0x2800000).isSome = true ∧
    ((regAt 0x10000).any fun d => decide (d.fields.Pairwise (fun a b => a.lo + a.width ≤ b.lo ∨ b.lo + b.width ≤ a.lo)) &&
      (d.fields.any fun f => decide (f.lo + f.width ≤ 32))) = true ∧ (1#32).getLsbD 0 = true ∧ (0x80000000#32).getLsbD 31 = true ∧
    (0#32).getLsbD 0 = false ∧ (0#32).getLsbD 31 = false := by decide +kernel
theorem witness_Shares : portHost .pf = true ∧ portHost .mgmt = false ∧ newF (BitVec.ofNat 32 50) F.DISP_CTRL_GPCT = 50 ∧ newF (BitVec.ofNat 32 101) F.DISP_CTRL_GPCT = 101 ∧
    ((List.range 8).all fun p => (dev.setF F.DISP_CTRL_GPCT 50).guarOk p) = true ∧ dev.partPort .pf 0 = true ∧ dev.partPort .mgmt 0 = false := by decide +kernel
/-- The vision units are there. Context 3, in state `st`, of partition 0; it is fed by the network where `net`. -/
def vis : State := (((dev.setF F.GLB_CAP_VIDEO_RAWPORT_PRESENT 255).setF F.GLB_CAP_VIDEO_DEC_PRESENT 0xFFFF).setF F.GLB_CAP_VIDEO_ENC_PRESENT 3).setF
  F.GLB_CAP_VIDEO_JPEG_PRESENT 1
def ctx3 (net : Bool) (st : Nat) : State :=
  ((((((vis.setCx 3 0 63 62 st).setCx 3 0 61 61 (if net then 1 else 0)).setCx 3 0 47 40 2).setCx 3 8 31 28 4).setCx 3 7 31 8 1).setCx 3 1 63 62 1).setF
    (F.RAW_SIZE_WIDTH 0) 16 |>.setF (F.RAW_SIZE_HEIGHT 0) 16
def grpSt (s : State) (v : Nat) : State := s.setGrp 0 v
def noShare (s : State) : State := { s with parts := [(0, { live := true, teams := 255, gddrSize := 16 })] }
theorem witness_StreamContexts : portHost .pf = true ∧ dev.visQueued < 64 ∧
    64 ≤ ({ dev with events := List.replicate 64 (.visCmd 1 0) } : State).visQueued ∧
    vis.activateRefusal 3 = some rIllegalShape ∧ (ctx3 false 0).activateRefusal 3 = none ∧ (ctx3 false 0).cNET 3 = false ∧
    (ctx3 true 0).activateRefusal 3 = none ∧ (ctx3 true 0).cNET 3 = true ∧ (ctx3 true 0).grp 0 ≠ 2 ∧ (ctx3 true 0).cDEC 3 / 4 = 0 ∧
    (grpSt (ctx3 true 0) 2).activateRefusal 3 = none ∧ (grpSt (ctx3 true 0) 2).grp 0 = 2 ∧ (ctx3 true 1).cSTATE 3 = 1 ∧
    ((noShare (ctx3 true 1)).latch (.ctxLive 3 2 7#32)).liveWaits 3 2 = true ∧ (noShare (ctx3 true 1)).liveWaits 3 2 = false ∧
    (let s := (grpSt (ctx3 true 0) 1).modSctx 3 fun x => { x with waking := true }
     s.grp 0 = 1 ∧ (s.sctx 3).waking = true ∧ s.cNET 3 = true ∧ s.cDEC 3 / 4 = 0 ∧ 3 ∈ s.listedCtxs) ∧
    ([0, 1, 2].all fun st => decide ((noShare (ctx3 true st)).shareOwner 3 = none ∧ (noShare (ctx3 true st)).cSTATE 3 = st ∧
      ((noShare (ctx3 true st)).sctx 3).waking = false ∧ 7#32 ≠ (noShare (ctx3 true st)).rd (ctxOff 3 + 8) ∧
      7#32 ≠ (noShare (ctx3 true st)).rd (ctxOff 3 + 16))) = true := by decide +kernel
/-- Raw port 0, enabled, in state `st`, with an open frame or a closed one. -/
def portSt (st : Nat) (x : RawPort) : State := (((vis.setF (F.RAW_CTRL_EN 0) 1).setF (F.RAW_STATUS_STATE 0) st).setF (F.RAW_SIZE_WIDTH 0) 2).setRawPort 0 x
def openF (cur : Option (List Nat)) : RawFrame := { w := 2, h := 1, cur := cur, count := 1, fb := some 0 }
theorem witness_RawCapture : vis.rawPresent 0 = true ∧ vis.getF (F.RAW_CTRL_EN 0) = 0 ∧
    (let s := portSt 1 {}
     s.rawPresent 0 = true ∧ s.getF (F.RAW_CTRL_EN 0) = 1 ∧ s.rawState 0 = 1 ∧ s.rawCtx 0 = none ∧ (s.rawPort 0).frame = none) ∧
    ([none, some [], some [1, 2]].all fun c => decide (((portSt 2 { frame := some (openF c) }).rawPort 0).frame = some (openF c))) = true ∧
    (openF none).count = (openF none).h ∧ (portSt 2 { frame := some (openF none) }).rawState 0 = 2 ∧ (portSt 3 {}).rawState 0 = 3 ∧
    (1#32).getLsbD 0 = true ∧ ((portSt 1 { isp := [openF none] }).rawPort 0).isp = [openF none] := by decide +kernel
/-- Port 0 is up and answers 1.2.3.4; a camera packet of payload type `pt` to UDP port 5000, as a fragment where `frag`. -/
def netSt (s : State) : State := ((((s.setF (F.FAB_PORT_STATE 0) 2).wr 0x602048 16#32).wr 0x602040 0x01020304#32).setF F.VIS_INGEST_PORTS_LO 5000).setF
  F.VIS_INGEST_PORTS_HI 5001
def camera (frag : Bool) (pt : Nat) : List Nat :=
  List.replicate 12 0 ++ [8, 0, 0x45, 0, 0, 48, 0, 0, if frag then 0x20 else 0, 0, 64, 17, 0, 0, 9, 9, 9, 9, 1, 2, 3, 4] ++ [0, 7, 0x13, 0x88, 0, 28, 0, 0] ++
    [0x80, pt, 0, 1, 0, 0, 0, 5, 0, 0, 0, 6, 1, 2, 3, 4, 5, 6, 7, 8]
def plainFrame : List Nat := List.replicate 12 0 ++ [0x12, 0x34, 1, 2, 3]
def isPacket (s : State) (pt : Nat) : Bool := match s.cameraOf 0 (camera false pt) with
  | .packet src dport b => decide (src = mapped4 0x09090909 ∧ dport = 5000 ∧ beAt b 1 1 = pt ∧ (rtpOf b).ssrc = 6 ∧ (rtpOf b).pt = pt % 128)
  | _ => false
/-- Context 3 takes what comes to port 5000, with payload type 96. -/
def flowSt : State := netSt (((ctx3 true 1).setCx 3 2 31 16 5000).setCx 3 0 38 32 96)
theorem witness_IngestAndScale : (netSt vis).phase = .up ∧ (netSt vis).getF (F.FAB_PORT_STATE 0) = 2 ∧ (netSt vis).harnessOf 0 plainFrame = none ∧
    isPtp plainFrame = false ∧ (netSt vis).cameraOf 0 plainFrame = .no ∧ (netSt vis).cameraOf 0 (camera true 96) = .drop ∧
    ([200, 204, 199, 205].all (isPacket (netSt vis))) = true ∧ (netSt vis).matchCtx (mapped4 0x09090909) 5000 6 = none ∧
    ([96, 97].all (isPacket flowSt)) = true ∧ flowSt.matchCtx (mapped4 0x09090909) 5000 6 = some 3 ∧ flowSt.cx 3 0 38 32 = 96 ∧
    (let s := (ctx3 true 1).modSctx 3 fun x => { x with missing := [(5, 0), (6, 100)] }
     s.cSTATE 3 = 1 ∧ (((s.sctx 3).missing.filter fun m => decide (m.2 + 1000 * s.cx 3 6 63 48 ≤ 0)).map (·.1)) ≠ [] ∧ (s.sctx 3).units = []) ∧
    (let s := (ctx3 true 1).modSctx 3 fun x => { x with units := [{ ts := 7, stage := 1 }] }
     (s.sctx 3).units = [{ ts := 7, stage := 1 }] ∧ 0 + 1000 * s.cx 3 6 47 32 ≤ 0) ∧
    (let s := { vis with vis := { vis.vis with swageQ := [{ ctx := 3 }] } }
     tget swage0 s.vis.swages 1 = none ∧ s.vis.swageQ = [{ ctx := 3 }]) ∧
    (let s := { vis with vis := { vis.vis with swages := [(1, some ({ ctx := 3 }, []))] } }
     tget swage0 s.vis.swages 1 = some ({ ctx := 3 }, []) ∧ s.swageHeld { ctx := 3 } [] = none) := by decide +kernel
def unitI : UnitInfo := { rap := true, profile := .high, level := 40, highTier := false, rate := 0, excluded := false, w := 16, h := 16 }
/-- An IDR behind its parameter sets, and a slice of another picture. -/
def idrBytes : List Nat := [32, 33, 34, 19].flatMap fun t => [0, 0, 1, 2 * t, 1, 7]
def sliceBytes : List Nat := [0, 0, 1, 2, 1, 7]
def decSt : State :=
  let s := (grpSt (ctx3 true 1) 2).modSctx 3 fun x => { x with units := [{ ts := 7, num := 2, stage := 2 }] }
  { s with vis := { s.vis with released := [(3, 7)] } }
def encSt (run : Bool) : State :=
  let s := ((ctx3 true 1).setCx 3 14 63 41 0x50).setCx 3 14 31 16 1
  { s with vis := { s.vis with encQ := [(1, [{ ctx := 3, num := 9 }])], encs := if run then [(1, some { ctx := 3, num := 9 })] else [] } }
/-- JPEG requests at 0x30000 with quality `q` and room for `cap` bytes. -/
def jobJ (q cap : Nat) : JpegJob := { addr := 0x30000, words := [BitVec.ofNat 64 (q * 2 ^ 37), 0#64, 0x40000#64, BitVec.ofNat 64 (cap * 2 ^ 32)] }
def jpegSt (run : Bool) (j : JpegJob) : State :=
  let s := vis.setCx 0 0 47 40 2
  { s with vis := { s.vis with jpegQ := [j], jpeg := if run then some j else none } }
theorem witness_Codecs : decSt.decPresent 0 = true ∧ decSt.decAt 0 = none ∧ decSt.grp 0 = 2 ∧ (decSt.fence 3 0).closed = false ∧
    (decSt.vis.released.find? fun e => decSt.cDEC e.1 == 0) = some (3, 7) ∧ ((decSt.sctx 3).units.find? fun v => v.ts == 7) = some { ts := 7, num := 2, stage := 2 } ∧
    unitI.rap = true ∧ unitSupported (decSt.cx 3 0 54 53) unitI = true ∧ frameBytes unitI.w unitI.h (decSt.cP010 3) ≤ decSt.cFBSIZE 3 ∧ decSt.fbNext 3 = some 0 ∧
    (decSt.setDec 0 (some { ctx := 3, num := 2 })).decAt 0 = some { ctx := 3, num := 2 } ∧
    (encSt false).encPresent 1 = true ∧ tget enc0 (encSt false).vis.encs 1 = none ∧ tget encq0 (encSt false).vis.encQ 1 = [{ ctx := 3, num := 9 }] ∧
    tget enc0 (encSt true).vis.encs 1 = some { ctx := 3, num := 9 } ∧ ((encSt true).sctx 3).encPos + (16 + (idrBytes.length + 15) / 16 * 16) ≤ (encSt true).cEOSIZE 3 ∧
    codedOk ((encSt true).idrNext 3) idrBytes = true ∧ codedOk false sliceBytes = true ∧
    vis.vis.jpegQ.length < 64 ∧ 64 ≤ ({ vis with vis := { vis.vis with jpegQ := List.replicate 64 {} } } : State).vis.jpegQ.length ∧
    (jpegSt false (jobJ 50 9)).jpegPresent = true ∧ (jpegSt false (jobJ 50 9)).vis.jpeg = none ∧ (jpegSt true (jobJ 50 9)).vis.jpeg = some (jobJ 50 9) ∧
    (jpegSt true (jobJ 50 9)).jpegError (jobJ 50 9) 3 = none ∧ (jpegSt true (jobJ 0 9)).jpegError (jobJ 0 9) 3 = some rIllegalShape ∧ rIllegalShape ≠ rLengthBounds := by decide +kernel
/-- Member 0 of the job 7 of members 0 and 1, FORMED, with port 0 up; a message of member 1 of TYPE `typ` with number `seq`. -/
def job : State := ((((dev.setF (F.FAB_PORT_STATE 0) 2).setF F.FAB_JOB_ID_JOBID 7).setF F.FAB_JOB_STATE_STATE 2).setF (F.FAB_JOB_MEMBERS_MEMBERS 0) 3).setFab
  fun x => { x with live := 3 }
def rawMsg (typ seq arg : Nat) : List Nat :=
  let b := [2 ^ 60 + typ * 2 ^ 56 + 2 ^ 53 + 2 ^ 42 + 7 * 2 ^ 16, seq * 2 ^ 32 + 1, 5 * 2 ^ 32, arg].flatMap (beBytes 8)
  b ++ beBytes 4 (crc32c b)
def framed (b : List Nat) : List Nat := List.replicate 12 0 ++ beBytes 2 (job.getF F.FAB_ETYPE_ETYPE) ++ b
def msgFrame (typ seq arg : Nat) : List Nat := framed (rawMsg typ seq arg)
/-- The frame spells the message of its TYPE, which is not dropped. -/
def spells (s : State) (typ seq arg : Nat) : Bool := match s.harnessOf 0 (msgFrame typ seq arg) with
  | some (b, ok) =>
    let m := recvOf b
    decide (m.typ = typ ∧ m.seq = seq ∧ m.arg = arg ∧ m.src = 1 ∧ beAt m.payload 0 8 = 0) && !s.fabDrops (msgFrame typ seq arg) b ok m
  | none => false
def badFrame : List Nat := framed ((rawMsg 2 1 0).take 35 ++ [0, 0])
/-- The operation of OPID `o` has met a bad destination. -/
def spoilt (o : Nat) : State := job.setFab fun x => { x with spoiled := [o] }
def waitsFor (u : Unacked) : State := job.modFlow 1 fun x => { x with unacked := [u], unseen := 1, timeouts := [(0, 1)], avoid := [1] }
theorem witness_FabricMessages : ([(0, 0, 0), (1, 1, 2 ^ 40), (2, 1, 0), (3, 1, 900), (4, 1, 0), (5, 1, 2 ^ 56), (5, 1, 2 * 2 ^ 56), (6, 1, 0), (2, 0, 0),
      (2, 2, 0)].all fun e => spells job e.1 e.2.1 e.2.2) = true ∧
    ((job.harnessOf 0 badFrame).any fun e => job.fabDrops badFrame e.1 e.2 (recvOf e.1)) = true ∧
    (1 ∈ (spoilt 1).fab.spoiled ∧ (spoilt 1).dataBad { typ := 1, arg := 2 ^ 48 } = true) ∧ dataOPID (2 ^ 40) = 1 ∧ job.fab.spoiled = [] ∧
    (job.flow 1).down = false ∧ (job.flow 1).waiting = [] ∧ job.fab.running = none ∧ (job.flow 1).unacked = [] ∧ (job.flow 1).held = [] ∧
    (job.flow 1).rxNext = 1 ∧ seqBefore 0 1 = true ∧ seqBefore 2 1 = false ∧ job.fabLeader = job.fid ∧ job.fab.fannTick ≠ some 5 ∧
    spells (job.modFlow 1 fun x => { x with down := true }) 2 1 0 = true ∧
    ([0, 8].all fun n =>
      let u : Unacked := { msg := { typ := 2, seq := 9 }, tries := n, plane := some 0 }
      let x := (waitsFor u).flow 1
      decide (x.unseen ≠ 0 ∧ x.down = false ∧ x.unacked.find? (fun u => u.msg.seq == 9) = some u ∧ 1 ≤ tget nat0 x.timeouts 0 ∧ 1 ∈ x.avoid ∧
        ((waitsFor u).getF F.FAB_TIMERS_RETRY_MAX ≤ n ↔ n = 8))) = true ∧
    job.upPorts = [0] ∧ job.jobState = 2 ∧ job.others = [1] ∧ (job.setF (F.FAB_PORT_STATE 0) 1).getF (F.FAB_PORT_STATE 0) = 1 := by decide +kernel
/-- A device that may JOIN; one with an operation `w` at the head of its queue. -/
def mayJoin : State := (((((job.setF F.FAB_JOB_STATE_STATE 0).setF F.PACE_STATUS_ALIGNED 1).wr 0x100004 0x80000000#32)))
def opSt (w : List W64) : State := job.setFab fun x => { x with ops := [w] }
def opW (op count opid : Nat) : List W64 := [BitVec.ofNat 64 (op * 2 ^ 60 + 2 ^ 50 + opid * 2 ^ 40 + count), 0#64, 0#64, 5#64]
def bcastSt : State := (opSt (opW 1 64 3)).setObj 0 0 { stage := 2, size := 0x1000, segs := [{ home := some 0x100000 }] }
theorem witness_FabricJob : job.jobState = 2 ∧ (0#32).toNat = job.fab.bar % 2 ^ 32 ∧ (1#32).toNat ≠ job.fab.bar % 2 ^ 32 ∧
    (mayJoin.jobState = 0 ∧ mayJoin.fabMembers / 2 ^ mayJoin.fid % 2 = 1 ∧ mayJoin.getF F.PACE_STATUS_ALIGNED = 1 ∧ mayJoin.rEN mayJoin.jobRing = 1 ∧
      mayJoin.rPART mayJoin.jobRing = mayJoin.jobPart) ∧ (job.setF F.FAB_JOB_STATE_STATE 1).jobState = 1 ∧ job.fab.ownLeave = none ∧
    job.fabLeader = job.fid ∧ newF (BitVec.ofNat 32 1000) F.FAB_JOB_TP_TP_US = 1000 ∧ newF (BitVec.ofNat 32 999) F.FAB_JOB_TP_TP_US = 999 ∧
    (let s := job.setFab fun x => { x with fannTick := some 9 }
     s.fab.fannTick = some 9 ∧ s.pace.edge + 500 * s.pace.tp ≤ 100000000) ∧
    (job.setFab fun x => { x with timedOut := true }).fab.timedOut = true ∧
    (opSt (opW 5 0 0)).collectiveCheck (opW 5 0 0) = some rIllegalShape ∧ (opSt (opW 3 0 0)).collectiveCheck (opW 3 0 0) = some rPermission ∧
    bcastSt.collectiveCheck (opW 1 0 3) = none ∧
    coCOUNT (opW 1 0 3) = 0 ∧ coOP (opW 1 0 3) = 1 ∧ bcastSt.collectiveCheck (opW 1 64 3) = none ∧ coCOUNT (opW 1 64 3) ≠ 0 ∧
    coROOT (opW 1 64 3) ≠ bcastSt.fid ∧ bcastSt.fab.parked = [] ∧ (opSt (opW 4 0 3)).collectiveCheck (opW 4 0 3) = none ∧ coOP (opW 4 0 3) = 4 ∧
    (opSt (opW 4 0 3)).fab.opBars = [] ∧ (opSt (opW 4 0 3)).others ≠ [] ∧ ((opSt (opW 4 0 3)).flow 1).down = false := by decide +kernel
/-- Team 0 in power state `st`, with a request or writes of CFG held for it. -/
def powerSt (st : Nat) (req : Bool) (cfg : List (Nat × W32)) : State :=
  (dev.setF (F.TEAM_PWR_STATUS_STATE 0) st).modTeam 0 fun x => { x with heldReq := req, heldCfg := cfg }
theorem witness_TeamPower : ([(3, false), (3, true), (1, false), (2, true)].all fun e =>
      let s := powerSt e.1 e.2 []
      decide (s.phase = .up ∧ s.teamPresent 0 = true ∧ s.jtag.waits = none ∧ s.getF (F.TEAM_PWR_STATUS_STATE 0) = e.1 ∧ (s.team 0).heldReq = e.2 ∧ (s.team 0).heldCfg = [])) = true ∧
    (let s := powerSt 2 true [(0x208, BitVec.ofNat 32 (1 * 2 ^ 30 + 255))]
     s.getF (F.TEAM_PWR_STATUS_STATE 0) = 2 ∧ (s.team 0).heldCfg = [(0x208, BitVec.ofNat 32 (1 * 2 ^ 30 + 255))] ∧ s.tallyQueued 0 < 64) := by
  decide +kernel
/-- A request in MB_REQ: 64 bytes of header of operation `op` with the length of its arguments, and these. -/
def request (op slot : Nat) (a : List Nat) (s : State) : State :=
  let b := [op, slot] ++ leBytes 2 a.length ++ [1, 2, 3, 4] ++ List.replicate 56 0 ++ a
  (List.range ((b.length + 3) / 4)).foldl (fun u i => u.wr (0x42000 + 4 * i) (BitVec.ofNat 32 (le b (4 * i) 4))) s
def pad (n : Nat) (a : List Nat) : List Nat := (a ++ List.replicate n 0).take n
/-- An operation, the slot of its key, its arguments, whether they are well-formed and whether their range is reached. -/
def requests : List (Nat × Nat × List Nat × Bool × Bool) :=
  [(0x01, 0, pad 12 [7], true, true), (0x01, 0, pad 12 [8], false, true), (0x02, 0, [3], true, true),
   (0x10, 0, pad 24 [0, 0, 5], true, true), (0x10, 0, pad 24 [0, 1], false, true), (0x10, 0, pad 24 [0, 0, 5, 0, 0, 0, 0, 0, 0, 0, 0, 0, 1], true, false),
   (0x11, 0, [0, 0, 5, 0], true, true), (0x11, 0, [0, 1, 5, 0], false, true),
   (0x20, 0, pad 48 [7], true, true), (0x20, 0, pad 48 [8], false, true),
   (0x20, 0, pad 48 [0, 0, 0, 0, 0, 0, 0, 0, 0, 0, 0, 0, 1], true, false),
   (0x30, 1, [3], true, true), (0x30, 1, [4], false, true), (0x31, 1, pad 36 [3], true, true), (0x31, 1, pad 36 [0, 1], false, true),
   (0x32, 1, [64], true, true), (0x32, 1, [65], false, true)]
/-- All 8 partitions reach the lowest MiB. -/
def allParts : State := { dev with parts := (List.range 8).map fun p => (p, { live := true, gddrSize := 1 }) }
theorem witness_Mailbox_requests : portHost .pf = true ∧ portHost (.vf 1) = false ∧ (requests.all fun e =>
      let (op, slot, a, shape, range) := e
      let s := request op slot a allParts
      let b := s.mbBytes 0x40 a.length
      decide (s.phase = .up ∧ s.getF F.MB_STATUS_STATE ≠ 1 ∧ s.mbBytes 0 1 = [op] ∧ b = a ∧ leNat (s.mbBytes 2 2) = a.length ∧ s.mbBytes 1 1 = [slot] ∧
        zeroBytes (s.mbBytes 8 56) = true ∧
        shape = (match op with
          | 0x01 => decide (b.getD 0 0 < 8) && zeroBytes ((b.drop 2).take 2)
          | 0x10 => zeroBytes ((b.drop 1).take 1) && zeroBytes ((b.drop 4).take 4)
          | 0x11 => zeroBytes ((b.drop 1).take 1)
          | 0x20 => zeroBytes ((b.drop 1).take 7) && decide (b.getD 0 0 < 8 ∨ b.getD 0 0 = 0xFF)
          | 0x30 => decide (b.getD 0 0 < 4)
          | 0x31 => decide (b.getD 0 0 < 4) && zeroBytes ((b.drop 1).take 3)
          | 0x32 => decide (b.getD 0 0 ≤ 64)
          | _ => true) ∧
        (op = 0x10 → range = s.mbRange (b.getD 0 0) (le b 8 8) (le b 16 8)) ∧
        (op = 0x20 → b.getD 0 0 < 8 → range = s.mbRange (b.getD 0 0) (le b 8 8) (s.hallmarkLen (b.getD 0 0) (le b 8 8))) ∧
        s.pace.ticking = false ∧ (op = 0x30 → s.signedOk 1 b[0]? = false))) = true := by decide +kernel
/-- The whole device's Hallmark into the host window, and a write out of it. -/
def toHost (top : Nat) : State := request 0x20 0 ((pad 48 [0xFF]).set 13 top) allParts
theorem witness_Mailbox_hallmark : ([(0x80, true), (0x7F, false)].all fun e =>
      let a := (toHost e.1).mbBytes 0x40 48
      decide ((toHost e.1).mbRange (a.getD 0 0) (le a 8 8) ((toHost e.1).hallmarkLen (a.getD 0 0) (le a 8 8)) = e.2 ∧ a.getD 0 0 = 0xFF ∧
        (toHost e.1).mbBytes 0 1 = [0x20])) = true ∧ ticking.pace.ticking = true := by decide +kernel
/-- The arguments of PART_CREATE for partition 1 with Teams `teams`, 1 MiB of memory at `base` MiB and a stream context from `first` on. -/
def create (teams base first : Nat) : List Nat := [1, teams, 0, 0] ++ leBytes 2 base ++ leBytes 2 1 ++ leBytes 2 first ++ leBytes 2 1
def onePart : State := { dev with parts := [(0, { live := true, teams := 1, gddrSize := 16, sctxCount := 16 })] }
def slots (l : List Nat) : State := State.liveFuses { dev with fuses := l.map fun n => (32 * n, 1) }
theorem witness_Mailbox_snapshot : onePart.createRefusal (create 2 16 16) = none ∧ onePart.createRefusal (create 0 16 16) = some rIllegalShape ∧
    onePart.createRefusal (create 1 16 16) = some rPermission ∧ onePart.createRefusal (create 2 0xFFFF 16) = some rLengthBounds ∧
    rIllegalShape < 256 ∧ rPermission < 256 ∧ rLengthBounds < 256 ∧
    (onePart.part 0).live = true ∧ (onePart.part 1).live = false ∧
    ((slots [1]).liveFuses.slotUsable 1 = true ∧ (slots [1]).liveFuses.slotUsable 0 = false ∧ (slots [1]).liveFuses.slotUsable 2 = false ∧ (slots [1]).liveFuses.slotUsable 3 = false) ∧
    ((slots [1, 2]).liveFuses.slotUsable 1 = true ∧ (slots [1, 2]).liveFuses.slotUsable 2 = true) ∧
    (({ dev with parts := [(7, { scrub := true, gddrSize := 1 })] } : State).part 7).scrub = true := by decide +kernel
/-- A bundle of no blocks that copies. -/
def copies : State := { dev with assay := { dev.assay with copying := some {} } }
theorem witness_Mailbox_copy : copies.phase = .up ∧ copies.assay.copying = some {} ∧ copies.openBundle {} = some [] ∧ (copies.keySlot 0).live = false := by
  decide +kernel
/-- A bundle of one block; no block opens where no tag holds. -/
def oneBlock : Import := { hdr := List.replicate 24 0 ++ [1] }
theorem witness_Mailbox_badCopy (h : ∀ k n a c t, Config.gcmOpen k n a c t = none) : copies.openBundle oneBlock = none := by
  have hn : le oneBlock.hdr 0x18 4 = 1 := by decide +kernel
  simp [State.openBundle, hn, State.openBlock, h, List.range_succ]
/-- The responder of path `f` at stage `n` with the sessions `l`; partition 0 exists, partition 7 does not; VF 1 belongs to partition 0. -/
def spdmSt (f n : Nat) (l : List (Nat × Bool)) : State :=
  (((dev.setF F.HQE_STATUS_DRT_READY 1).setF (F.HQE_VF_VALID 1) 1).setF (F.HQE_VF_PART 1) 0).setSpdm f { stage := n, sessions := l }
theorem witness_Attestation : ([0, 1, 64].all fun f => [0, 1, 2, 3].all fun n =>
      let s := spdmSt f n [(4, false), (5, true)]
      decide (s.phase = .up ∧ s.getF F.HQE_STATUS_DRT_READY = 1 ∧ f < 65 ∧ (s.spdmOf f).stage = n ∧ (s.part 0).live = true ∧
        (f = 0 ∨ f = 64 ∨ s.vfPart f = some 0) ∧ (s.part 7).live = false ∧ (4, false) ∈ (s.spdmOf f).sessions ∧ (5, false) ∉ (s.spdmOf f).sessions ∧
        (5, true) ∈ (s.spdmOf f).sessions ∧ (4, true) ∉ (s.spdmOf f).sessions)) = true ∧
    (spdmSt 2 3 []).vfPart 2 ≠ some 0 := by decide +kernel
/-- IDE stream `k` with its keys and its key sets in use, over the functions 0 to 9; VF 1 in the state `st` of a TDI, locked with nonce 77. -/
def ideSt (k : Nat) (x : Ide) (st : Nat) : State :=
  { (spdmSt 0 3 [(5, true)]).setIde k { x with lo := 0, hi := 9 } with tdis := [(1, st)], tdiNonce := [(1, 77)] }
theorem witness_IdeAndTdisp : ([({} : Ide), { keys := [(0, 9)] }, { keys := [(0, 9)], use := [0] }, { keys := [(0, 9)], use := [ideKey 1 0 0] }].all fun x =>
      [0, 1, 2, 3].all fun st => [0, 16].all fun k =>
        let s := ideSt k x st
        decide (s.phase = .up ∧ s.getF F.HQE_STATUS_DRT_READY = 1 ∧ 3 ≤ (s.spdmOf 0).stage ∧ (5, true) ∈ (s.spdmOf 0).sessions ∧
          (6, true) ∉ (s.spdmOf 0).sessions ∧ ideOkKey k 0 0 0 = true ∧ ideKey 0 0 0 = 0 ∧ (s.ideOf k).use = x.use ∧ (s.ideOf k).keys = x.keys ∧
          tget tdi0 s.tdis 1 = st ∧ tget nat0 s.tdiNonce 1 = 77)) = true ∧
    tdispPath 0 1 = true ∧ tdispPath 2 1 = false ∧ 3 ≤ ((spdmSt 1 3 [(5, true)]).spdmOf 1).stage ∧ tdispPath 1 1 = true ∧
    (ideSt 0 { keys := [(0, 9)], use := [0] } 0).lockRefused 1 = false ∧ (ideSt 0 {} 0).lockRefused 1 = true := by decide +kernel
/-- Sensors 1 and 2 as they were last refreshed, and a receiver of events. -/
def watched (r : Option Nat) : State := { coolB with mgmt := { receiver := r, sensors := [(1, 0), (2, 8)] } }
theorem witness_Management : ([Phase.deepSleep, .halted, .recovery, .tripped].all fun p => decide ((asleep p).phase ≠ .coldReset ∧ (asleep p).phase ≠ .up)) = true ∧
    dev.phase = .up ∧ tget nat0 (watched none).mgmt.sensors 1 = 0 ∧ tget nat0 (watched none).mgmt.sensors 2 = 7 + 1 ∧
    (watched none).mgmt.receiver = none ∧ (watched (some 9)).mgmt.receiver ≠ none ∧
    happens 39 (tget nat0 (watched (some 9)).mgmt.seen 39) ((watched (some 9)).eventState 39) = true ∧
    dev.getF F.REIN_CAP_COOL_B = 0 ∧ coolB.getF F.REIN_CAP_COOL_B = 1 ∧ dev.syncState = 0 ∧ ticking.syncState ≠ 0 ∧ dev.events = [] ∧
    (dev.latch (.mgmtWrite 0x20014 900#32)).events = [.mgmtWrite 0x20014 900#32] := by decide +kernel
/-- An update in stage `n` with component `c` offered; the variant is 1. -/
def updSt (n c : Nat) (p : Phase) : State := { dev with bootFuses := [(0x8C, 1)], phase := p, mgmt := { upd := { stage := n, comps := [(c, 0)] } } }
/-- The header of a component for variant 1, of version 5. -/
def hdr1 : List Nat := pad 2048 [0, 0, 0, 0, 0, 0, 0, 1, 5, 0, 0, 0]
/-- A live update in state `st`, partition `p` of the two moved, with another text kept. -/
def liveSt (st moved : Nat) : State :=
  { ((onePart.setF F.HOSTCORE_LIVE_STATUS_STATE st).setF F.HOSTCORE_LIVE_STATUS_MOVED moved) with
    assay := { onePart.assay with images := [{}, {}, {}, { version := 4 }] }, hcore := { next := some { version := 5 } } }
theorem witness_FirmwareUpdate : ([Phase.up, .recovery].all fun p => [0, 1, 2, 3, 4, 5].all fun n =>
      let s := updSt n 1 p
      decide (s.phase = p ∧ s.mgmt.upd.stage = n ∧ s.liveBusy = false ∧ s.compOk 1 hdr1 = true ∧ s.compOk 5 hdr1 = false ∧ 1 ∈ s.mgmt.upd.comps.map (·.1) ∧
        2 ∉ s.mgmt.upd.comps.map (·.1) ∧ (s.awaiting = true ↔ p = .recovery))) = true ∧
    compSize 1 < 0x27FFF + [1, 2].length ∧ 0x27FFE + [1, 2].length ≤ compSize 1 ∧ (updSt 3 1 .recovery |>.setF F.ASSAY_RECOV_STATUS_STATE 3).awaiting = false ∧
    4 ≤ (updSt 4 2 .up).mgmt.upd.stage ∧ 2 ∈ (updSt 4 2 .up).mgmt.upd.comps.map (·.1) := by decide +kernel
theorem witness_FirmwareUpdate_live : ([(0, 0), (1, 0), (2, 0), (2, 1), (3, 0)].all fun e =>
      let s := liveSt e.1 e.2
      decide (s.phase = .up ∧ portHost .pf = true ∧ s.getF F.HOSTCORE_LIVE_STATUS_STATE = e.1 ∧ s.getF F.HOSTCORE_LIVE_STATUS_MOVED = e.2 ∧
        (s.part 0).live = true ∧ (s.part 1).live = false ∧ s.assay.images.length = 4 ∧ s.hcore.next = some { version := 5 } ∧
        (s.liveBusy = true ↔ e.1 = 1 ∨ e.1 = 2))) = true ∧
    ((List.range 8).all fun q => decide ((liveSt 2 1).part q |>.live) == decide (q = 0)) = true := by decide +kernel
/-- DBGACC in the instruction register, and a session of the PF that reaches partition 0. -/
def tapSt (ir : Nat) : State := { dev with jtag := { dev.jtag with ir := ir } }
def openSt : State := (with0 { run := true }).setF F.DBG_SESSION_STATUS_PF_OPEN 1 |>.setF F.DBG_SESSION_STATUS_PF_SCOPE 1
def stoppedSt (cause : Nat) : State := (openSt.setCore 0 { run := true, stopped := true, pc := 5 }).setF (F.DBG_CORE_STATUS_CAUSE 0) cause
theorem witness_JtagAndDebug : ([Phase.up, .halted, .recovery].all fun p => decide ((asleep p).phase = p ∧ (asleep p).jtag.ir ≠ 0x10)) = true ∧
    (tapSt 0x10).phase = .up ∧ (tapSt 0x10).jtag.ir = 0x10 ∧ 0x06 % 256 ∉ [0x01, 0x02, 0x03, 0x04, 0x05, 0x10] ∧
    (let s := tapSt 0x10
     0x800000000000 % 4 = 0 ∧ s.gddrTop ≤ 0x000700000000 ∧ 0x000700000000 < 0x000800000000 ∧
       0x2000000 < s.gddrTop ∧ s.pairOk (gddrPair 0x2000000) = true ∧ ((List.range 8).all fun q => !s.inRange q 0x2000000 4) = true ∧
       s.pairOk (gddrPair 0xFFFFFC) = true ∧ s.inRange 0 0xFFFFFC 4 = true ∧ s.inRange 0 0xFFFFFE 4 = false ∧ s.ueHit 0xFFFFFC 4 = false) ∧
    debugReg 0x10000 = none ∧ debugReg 0x1040100 ≠ none ∧ dev.accGated 0x1040100 none = none ∧
    (dev.setF (F.TEAM_PWR_STATUS_STATE 0) 1).accGated 0x1040100 none = some 0 ∧ openSt.teamPresent 0 = true ∧ openSt.teamOn 0 = true ∧
    (let s := openSt.setF (F.TEAM_PWR_STATUS_STATE 0) 1
     s.debugReaches (s.partOf 0) = true ∧ s.teamPresent 0 = true ∧ s.teamOn 0 = false) ∧
    dev.getF F.DBG_SESSION_STATUS_PF_OPEN = 0 ∧ openSt.getF F.DBG_SESSION_STATUS_PF_OPEN = 1 ∧ dev.jtag.ir ≠ 0x10 ∧ (dev.part 0).live = true ∧
    (with0 { run := true }).debugReaches ((with0 {}).partOf 0) = false ∧ openSt.debugReaches (openSt.partOf 0) = true ∧
    openSt.slotOf 0 = some 0 ∧ (openSt.core 0).run = true ∧ (openSt.core 0).stopped = false ∧
    ([0, 1].all fun c => decide (((stoppedSt c).core 0).stopped = true ∧ (stoppedSt c).slotOf 0 = some 0 ∧ (stoppedSt c).phase = .up ∧ (stoppedSt c).teamPresent 0 = true ∧ (stoppedSt c).teamOn 0 = true ∧
      (stoppedSt c).debugReaches ((stoppedSt c).partOf 0) = true ∧ (stoppedSt c).getF (F.DBG_CORE_STATUS_CAUSE 0) = c)) = true := by decide +kernel
/-- The registers that writes of VF 1 may reach: its ring 0, and its partition's share. -/
theorem witness_VfIsolation : ([0x80000, 0x100004, 0x240000, 0x3C0000, 0x780000, 0x10000].all fun o =>
    match execRegisterWrite (.vf 1) 0 o 1#32 (spdmSt 1 3 []) with
    | .next t => t.phase == .up
    | _ => false) = true := by decide +kernel

/-! ### Single steps: the expected results are those of the rules named, worked out by hand -/

/-- Core 0 after a word of RD `rd`, RS1 2 and RS2 3, with S2 and S3 as given, has run from the front of the queue. -/
def after (i : Instr) (op rd imm : Nat) (a b : W64) : Core :=
  match step { runs (word op (rd * 2 ^ 51 + 2 * 2 ^ 46 + 3 * 2 ^ 41 + imm)) { sregs := [(2, a), (3, b)] } with pending := [i] } with
  | .next t => t.core 0
  | _ => {}

/-- R127: arithmetic is modulo 2^64. -/
theorem test_add_wraps : (after (.add 0) 0x01 5 0 0xFFFFFFFFFFFFFFFF#64 2#64).S 5 = 1#64 ∧ (after (.sub 0) 0x02 5 0 0#64 1#64).S 5 = 0xFFFFFFFFFFFFFFFF#64 := by
  decide +kernel
/-- R128: a shift goes by the low six bits; SRA copies the sign. -/
theorem test_sra_amount : (after (.sra 0) 0x08 5 0 0x8000000000000000#64 65#64).S 5 = 0xC000000000000000#64 := by decide +kernel
/-- R129: division by 0, and the one quotient that does not fit. -/
theorem test_div_corners : (after (.div 0) 0x24 5 0 7#64 0#64).S 5 = 0xFFFFFFFFFFFFFFFF#64 ∧
    (after (.rem 0) 0x26 5 0 0x8000000000000000#64 0xFFFFFFFFFFFFFFFF#64).S 5 = 0#64 := by decide +kernel
/-- The high half of a product, signed and not. -/
theorem test_mulh : (after (.mulh 0) 0x21 5 0 0xFFFFFFFFFFFFFFFF#64 2#64).S 5 = 0xFFFFFFFFFFFFFFFF#64 ∧
    (after (.mulhu 0) 0x22 5 0 0xFFFFFFFFFFFFFFFF#64 2#64).S 5 = 1#64 := by decide +kernel
/-- R131: an unsigned comparison takes the branch that the signed one does not. -/
theorem test_branches : (after (.blt 0) 0x42 0 7 1#64 0xFFFFFFFFFFFFFFFF#64).pc = 1 ∧ (after (.bltu 0) 0x44 0 7 1#64 0xFFFFFFFFFFFFFFFF#64).pc = 7 := by
  decide +kernel

/-- R499, R500: the last row is BP, row 45 is BG, and ball BG7 lies with PCIe; the groups have 1,942 balls. -/
theorem test_balls : ballRow 52 = "BP" ∧ ballRow 45 = "BG" ∧ ballGroup 45 7 = some .pcie ∧
    ([BallGroup.gddrWest, .gddrEast, .cameras, .system, .core, .pcie, .ethernet].map fun g => g.balls.1 + g.balls.2.1 + g.balls.2.2).foldl (· + ·) 0 = 1942 ∧
    (systemSignals.map (·.2.1)).foldl (· + ·) 0 = BallGroup.system.balls.1 := by decide +kernel

end Sys2Proof.Tests
end

/-!
PROOFS. Store space (R99, R100, R133): SALLOC and SRESET.
-/
namespace Sys2Proof.Machine

/-! ### What an instruction's body says, and what the step then is -/

/-- An instruction whose body completes leaves the core that the body gives. -/
theorem teamster_done {s : State} {n k : Nat} {w : W64} {opc resv : Nat} {body : State → Nat → Core → W64 → TOut}
    {c : Core} (h : Fetches s n k w) (ho : opcodeOf w = opc) (hr : clearOf w resv = true)
    (hb : body s k (s.core k) w = .done (s.setCore k c)) :
    teamster n opc resv body s = .next (s.leaves n k c) := by
  rw [teamster_fetches h ho hr, hb, State.leaves]

/-- An instruction whose body faults stops its core with the body's reason and DETAIL. -/
theorem teamster_bad {s : State} {n k : Nat} {w : W64} {opc resv : Nat} {body : State → Nat → Core → W64 → TOut}
    {reason detail ev : Nat} (h : Fetches s n k w) (ho : opcodeOf w = opc) (hr : clearOf w resv = true)
    (hb : body s k (s.core k) w = .bad reason detail ev) :
    teamster n opc resv body s = .next (s.tfault k n (s.core k) reason detail ev) := by
  rw [teamster_fetches h ho hr, hb]

/-- The upper half of a word, which a fault on a reserved bit reports (R125). -/
theorem bits_upperHalf (w : W64) : bits w 63 32 = w.toNat / 2 ^ 32 :=
  Nat.mod_eq_of_lt (Nat.div_lt_of_lt_mul w.isLt)

/-! ### What a fault leaves of the core it stops (R122) -/

@[simp] theorem State.core_markJob (s : State) (k j : Nat) (f : Job → Job) : (s.markJob k f).core j = s.core j := by
  unfold State.markJob
  split <;> rfl

/-- A core that stops drops the commands it has not begun and takes note of a fault; the rest of it stays. -/
theorem State.core_stopCore (s : State) (k n : Nat) (g : FaultRec) (ev : Nat) :
    ∃ g' : FaultRec, (s.stopCore k n g ev).core k =
      { s.core k with run := false, wait := none, faulted := true, mq := [], xq := [], vq := [], dq := [], kq := [],
                      heldCmds := [], shadow := none, fault := (s.core k).fault.record g' } := by
  simp only [State.stopCore, State.core_latch, State.core_trace, State.core_modTeam, State.core_modCore, if_pos,
    State.core_markJob]
  exact ⟨_, rfl⟩

/-- A fault leaves STORE_TOP. -/
theorem State.storeTop_tfault (s : State) (k n : Nat) (c : Core) (reason detail ev : Nat) :
    ((s.tfault k n c reason detail ev).core k).storeTop = (s.core k).storeTop := by
  obtain ⟨g', hcore⟩ := s.core_stopCore k n
    { reason := reason, source := 0, cmdcnt := c.cmdcnt, tag := c.ctag, pc := c.pc % 8192, detail := detail % 2 ^ 32 } ev
  rw [State.tfault, hcore]

/-! ### SALLOC (R99) -/

/-- The STORE_TOP that SALLOC asks for: the size in S[RS1], rounded up to 64 bytes, above the present one. -/
def Core.sallocTop (c : Core) (w : W64) : Nat := c.storeTop + roundUp (c.S (fRS1 w)).toNat 64

theorem Core.sallocTop_eq (c : Core) (w : W64) :
    c.sallocTop w = c.storeTop + ((c.S (fRS1 w)).toNat + 63) / 64 * 64 := rfl

theorem execSalloc_fits {s : State} {n k : Nat} {w : W64} (h : Fetches s n k w) (ho : opcodeOf w = 0x58)
    (hr : clearOf w resvSalloc = true) (hfit : (s.core k).sallocTop w ≤ storeSize) :
    execSalloc n s = .next (s.leaves n k
      { (s.core k).setS (fRD w) (BitVec.ofNat 64 (s.core k).storeTop) with
          storeTop := (s.core k).sallocTop w, pc := (s.core k).pc + 1 }) := by
  refine teamster_done h ho hr ?_
  rw [Core.sallocTop] at hfit
  simp only [Nat.not_lt.mpr hfit, if_false, Core.sallocTop, Core.advance, Core.setS_pc]

theorem execSalloc_overflows {s : State} {n k : Nat} {w : W64} (h : Fetches s n k w) (ho : opcodeOf w = 0x58)
    (hr : clearOf w resvSalloc = true) (hover : storeSize < (s.core k).sallocTop w) :
    execSalloc n s = .next (s.tfault k n (s.core k) rStoreOverflow (s.core k).storeTop 3) :=
  teamster_bad h ho hr (if_pos hover)

/-! ### SRESET (R100) -/

/-- The values that SRESET takes: multiples of 64 between the static size and STORE_TOP, inclusive. -/
def Core.sresetTakes (c : Core) (v : Nat) : Prop := v % 64 = 0 ∧ c.staticSize ≤ v ∧ v ≤ c.storeTop

theorem execSreset_takes {s : State} {n k : Nat} {w : W64} (h : Fetches s n k w) (ho : opcodeOf w = 0x59)
    (hr : clearOf w resvSreset = true) (hv : (s.core k).sresetTakes ((s.core k).S (fRS1 w)).toNat) :
    execSreset n s = .next (s.leaves n k
      { s.core k with storeTop := ((s.core k).S (fRS1 w)).toNat, pc := (s.core k).pc + 1 }) :=
  teamster_done h ho hr (if_pos hv)

theorem execSreset_rejects {s : State} {n k : Nat} {w : W64} (h : Fetches s n k w) (ho : opcodeOf w = 0x59)
    (hr : clearOf w resvSreset = true) (hv : ¬ (s.core k).sresetTakes ((s.core k).S (fRS1 w)).toNat) :
    execSreset n s = .next (s.tfault k n (s.core k) rLengthBounds ((s.core k).S (fRS1 w)).toNat 3) :=
  teamster_bad h ho hr (if_neg hv)

/-! ### The statement -/

theorem exec_salloc (n : Nat) (s : State) : exec (.salloc n) s = execSalloc n s := rfl

theorem exec_sreset (n : Nat) (s : State) : exec (.sreset n) s = execSreset n s := rfl

/-- Settles O11: each instruction by its two outcomes, a reserved bit by `teamster_reserved`, and STORE_TOP after a
fault by what a stop leaves of the core. -/
theorem storeSpace : Obligations.StoreSpace := by
  intro s n k w h
  simp only [exec_salloc, exec_sreset, ← bits_upperHalf, ← Core.sallocTop_eq]
  refine ⟨fun ho hr => ⟨?fits, ?overflows⟩, ?sallocReserved, ?sresetReserved, fun ho hr => ⟨?takes, ?rejects⟩⟩
  case fits => exact fun hfit => execSalloc_fits h ho hr hfit
  case overflows => exact fun hover => ⟨execSalloc_overflows h ho hr hover, s.storeTop_tfault ..⟩
  case sallocReserved => exact fun ho hr => teamster_reserved h ho hr
  case sresetReserved => exact fun ho hr => teamster_reserved h ho hr
  case takes => exact fun hv => execSreset_takes h ho hr hv
  case rejects => exact fun hv => ⟨execSreset_rejects h ho hr hv, s.storeTop_tfault ..⟩

end Sys2Proof.Machine

/-!
PROOFS. Division (R129): DIV, DIVU, REM and REMU.
-/
namespace Sys2Proof.Machine

/-- An instruction of the form RD = S[RS1] op S[RS2] writes that value to RD and goes on to the next word. -/
theorem teamster_aluR {s : State} {n k : Nat} {w : W64} {opc resv : Nat} {op : W64 → W64 → W64} (h : Fetches s n k w)
    (ho : opcodeOf w = opc) (hr : clearOf w resv = true) :
    teamster n opc resv (aluR op) s =
      .next (s.writesRD n k w (op ((s.core k).S (fRS1 w)) ((s.core k).S (fRS2 w)))) :=
  teamster_done h ho hr rfl

/-! ### Quotients and remainders -/

theorem div64_of_ne_zero {a b : W64} (hb : b ≠ 0#64) : div64 a b = BitVec.ofInt 64 (a.toInt.tdiv b.toInt) := if_neg hb

theorem divu64_of_ne_zero {a b : W64} (hb : b ≠ 0#64) : divu64 a b = BitVec.ofNat 64 (a.toNat / b.toNat) := if_neg hb

theorem rem64_of_ne_zero {a b : W64} (hb : b ≠ 0#64) : rem64 a b = BitVec.ofInt 64 (a.toInt.tmod b.toInt) := if_neg hb

theorem remu64_of_ne_zero {a b : W64} (hb : b ≠ 0#64) : remu64 a b = BitVec.ofNat 64 (a.toNat % b.toNat) := if_neg hb

@[simp] theorem div64_zero (a : W64) : div64 a 0#64 = BitVec.allOnes 64 := if_pos rfl

@[simp] theorem divu64_zero (a : W64) : divu64 a 0#64 = BitVec.allOnes 64 := if_pos rfl

@[simp] theorem rem64_zero (a : W64) : rem64 a 0#64 = a := if_pos rfl

@[simp] theorem remu64_zero (a : W64) : remu64 a 0#64 = a := if_pos rfl

/-- The quotient 2^63 does not fit, and wraps to the dividend. -/
theorem div64_overflow : div64 (BitVec.ofInt 64 (-2 ^ 63)) (BitVec.ofInt 64 (-1)) = BitVec.ofInt 64 (-2 ^ 63) := by
  decide

theorem rem64_overflow : rem64 (BitVec.ofInt 64 (-2 ^ 63)) (BitVec.ofInt 64 (-1)) = 0#64 := by
  decide

/-! ### The statement -/

theorem exec_div (n : Nat) (s : State) : exec (.div n) s = teamster n 0x24 resvR (aluR div64) s := rfl

theorem exec_divu (n : Nat) (s : State) : exec (.divu n) s = teamster n 0x25 resvR (aluR divu64) s := rfl

theorem exec_rem (n : Nat) (s : State) : exec (.rem n) s = teamster n 0x26 resvR (aluR rem64) s := rfl

theorem exec_remu (n : Nat) (s : State) : exec (.remu n) s = teamster n 0x27 resvR (aluR remu64) s := rfl

/-- Settles O6: each instruction writes its operation's value by `teamster_aluR`, and that value is known for a divisor
that is not zero, for a zero divisor, and for the overflow. -/
theorem division : Obligations.Division := by
  intro s n k w h hr
  simp only [exec_div, exec_divu, exec_rem, exec_remu]
  refine ⟨fun hb => ?nonzero, fun hb => ?zero, fun ha hb => ?overflow⟩
  case nonzero =>
    rw [← div64_of_ne_zero hb, ← divu64_of_ne_zero hb, ← rem64_of_ne_zero hb, ← remu64_of_ne_zero hb]
    exact ⟨fun ho => teamster_aluR h ho hr, fun ho => teamster_aluR h ho hr, fun ho => teamster_aluR h ho hr,
      fun ho => teamster_aluR h ho hr⟩
  case zero =>
    refine ⟨fun ho => ?_, fun ho => ?_, fun ho => ?_, fun ho => ?_⟩ <;> rw [teamster_aluR h ho hr, hb]
    · rw [div64_zero]
    · rw [divu64_zero]
    · rw [rem64_zero]
    · rw [remu64_zero]
  case overflow =>
    refine ⟨fun ho => ?_, fun ho => ?_⟩ <;> rw [teamster_aluR h ho hr, ha, hb]
    · rw [div64_overflow]
    · rw [rem64_overflow]

end Sys2Proof.Machine

/-!
PROOFS. Branches and jumps (R131), reserved bits of their words (R125), and the fetch of a word that is not loaded (R92).
-/
namespace Sys2Proof.Machine

/-! ### The instructions as the Teamster sees them -/

/-- Instruction `i` of core `n` has opcode `opc` and reserved bits `resv`: the Teamster fetches it before its body acts. -/
def FetchedAs (n : Nat) (i : Instr) (opc resv : Nat) : Prop :=
  ∃ body : State → Nat → Core → W64 → TOut, ∀ s : State, exec i s = teamster n opc resv body s

theorem FetchedAs.reserved {s : State} {n k : Nat} {w : W64} {i : Instr} {opc resv : Nat} (hi : FetchedAs n i opc resv)
    (h : Fetches s n k w) (ho : opcodeOf w = opc) (hr : clearOf w resv = false) :
    exec i s = .next (s.tfault k n (s.core k) rIllegalShape (w.toNat / 2 ^ 32) 3) := by
  obtain ⟨body, hexec⟩ := hi
  rw [hexec, teamster_reserved h ho hr, bits_upperHalf]

theorem exec_beq (n : Nat) (s : State) :
    exec (.beq n) s = teamster n 0x40 resvBranch (branchOp fun a b => decide (a = b)) s := rfl

theorem exec_bne (n : Nat) (s : State) :
    exec (.bne n) s = teamster n 0x41 resvBranch (branchOp fun a b => decide (a ≠ b)) s := rfl

theorem exec_blt (n : Nat) (s : State) : exec (.blt n) s = teamster n 0x42 resvBranch (branchOp fun a b => a.slt b) s := rfl

theorem exec_bge (n : Nat) (s : State) : exec (.bge n) s = teamster n 0x43 resvBranch (branchOp fun a b => !a.slt b) s := rfl

theorem exec_bltu (n : Nat) (s : State) :
    exec (.bltu n) s = teamster n 0x44 resvBranch (branchOp fun a b => a.ult b) s := rfl

theorem exec_bgeu (n : Nat) (s : State) :
    exec (.bgeu n) s = teamster n 0x45 resvBranch (branchOp fun a b => !a.ult b) s := rfl

theorem exec_jal (n : Nat) (s : State) : exec (.jal n) s = execJal n s := rfl

theorem exec_jalr (n : Nat) (s : State) : exec (.jalr n) s = execJalr n s := rfl

/-- The branches and jumps of Table XR-2, with their opcodes and reserved bits. -/
def controlFlow (n : Nat) : List (Nat × Nat × Instr) :=
  [(0x40, resvBranch, .beq n), (0x41, resvBranch, .bne n), (0x42, resvBranch, .blt n), (0x43, resvBranch, .bge n),
   (0x44, resvBranch, .bltu n), (0x45, resvBranch, .bgeu n), (0x48, resvJal, .jal n), (0x49, resvI, .jalr n)]

theorem fetchedAs_of_mem_controlFlow {n : Nat} {e : Nat × Nat × Instr} (he : e ∈ controlFlow n) :
    FetchedAs n e.2.2 e.1 e.2.1 := by
  simp only [controlFlow, List.mem_cons, List.not_mem_nil, or_false] at he
  obtain rfl | rfl | rfl | rfl | rfl | rfl | rfl | rfl := he
  · exact ⟨_, exec_beq n⟩
  · exact ⟨_, exec_bne n⟩
  · exact ⟨_, exec_blt n⟩
  · exact ⟨_, exec_bge n⟩
  · exact ⟨_, exec_bltu n⟩
  · exact ⟨_, exec_bgeu n⟩
  · exact ⟨_, exec_jal n⟩
  · exact ⟨_, exec_jalr n⟩

/-- Each row of `registerWriters` names the opcode and the reserved bits that the dispatch gives its instruction. -/
theorem fetchedAs_of_mem_registerWriters {n : Nat} {e : (Nat → Instr) × Nat × Nat × Nat} (he : e ∈ registerWriters) :
    FetchedAs n (e.1 n) e.2.1 e.2.2.1 := by
  simp only [registerWriters, List.mem_cons, List.not_mem_nil] at he
  repeat
    obtain rfl | he := he
    · dsimp only [FetchedAs, exec]
      exact ⟨_, fun _ => rfl⟩
  exact he.elim

/-! ### Branches -/

/-- IMM[12:0], the target of a branch and of JAL. -/
theorem bits_target (w : W64) : bits w 12 0 = w.toNat % 8192 := by
  simp [bits]

/-- A branch goes to its target where the comparison `q` that its operation decides holds, and to the next word elsewhere. -/
theorem teamster_branch {s : State} {n k : Nat} {w : W64} {opc : Nat} {p : W64 → W64 → Bool} {q : Prop}
    (h : Fetches s n k w) (ho : opcodeOf w = opc) (hr : clearOf w resvBranch = true)
    (hpq : p ((s.core k).S (fRS1 w)) ((s.core k).S (fRS2 w)) = true ↔ q) :
    (q → teamster n opc resvBranch (branchOp p) s = .next (s.leaves n k { s.core k with pc := w.toNat % 8192 })) ∧
    (¬ q → teamster n opc resvBranch (branchOp p) s = .next (s.leaves n k { s.core k with pc := (s.core k).pc + 1 })) := by
  refine ⟨fun hq => teamster_done h ho hr ?_, fun hq => teamster_done h ho hr ?_⟩
  · rw [branchOp, if_pos (hpq.mpr hq), bits_target]
  · rw [branchOp, if_neg (mt hpq.mp hq), Core.advance]

theorem not_slt_iff (a b : W64) : (!a.slt b) = true ↔ b.toInt ≤ a.toInt := by
  rw [← BitVec.sle_eq_not_slt, BitVec.sle_iff_toInt_le]

theorem not_ult_iff (a b : W64) : (!a.ult b) = true ↔ b.toNat ≤ a.toNat := by
  rw [← BitVec.ule_eq_not_ult, BitVec.ule_iff_toNat_le]

/-! ### Jumps -/

theorem execJal_jumps {s : State} {n k : Nat} {w : W64} (h : Fetches s n k w) (ho : opcodeOf w = 0x48)
    (hr : clearOf w resvJal = true) :
    execJal n s = .next (s.leaves n k { (s.core k).setS (fRD w) (s.core k).link with pc := w.toNat % 8192 }) := by
  rw [← bits_target]
  exact teamster_done h ho hr rfl

/-- Where JALR goes: S[RS1] + IMM. -/
def Core.jalrTarget (c : Core) (w : W64) : Nat := (c.S (fRS1 w) + fImmS w).toNat

theorem execJalr_jumps {s : State} {n k : Nat} {w : W64} (h : Fetches s n k w) (ho : opcodeOf w = 0x49)
    (hr : clearOf w resvI = true) (hlt : (s.core k).jalrTarget w < 8192) :
    execJalr n s = .next (s.leaves n k
      { (s.core k).setS (fRD w) (s.core k).link with pc := (s.core k).jalrTarget w }) :=
  teamster_done h ho hr (if_neg (Nat.not_le.mpr hlt))

theorem execJalr_faults {s : State} {n k : Nat} {w : W64} (h : Fetches s n k w) (ho : opcodeOf w = 0x49)
    (hr : clearOf w resvI = true) (hle : 8192 ≤ (s.core k).jalrTarget w) :
    execJalr n s = .next (s.tfault k n (s.core k) rLengthBounds ((s.core k).jalrTarget w) 3) :=
  teamster_bad h ho hr (if_pos hle)

/-- A fault leaves the scalar registers. -/
theorem State.S_tfault (s : State) (k n : Nat) (c : Core) (reason detail ev i : Nat) :
    ((s.tfault k n c reason detail ev).core k).S i = (s.core k).S i := by
  obtain ⟨g', hcore⟩ := s.core_stopCore k n
    { reason := reason, source := 0, cmdcnt := c.cmdcnt, tag := c.ctag, pc := c.pc % 8192, detail := detail % 2 ^ 32 } ev
  rw [State.tfault, hcore]
  rfl

/-! ### The fetch of a word that is not loaded (R92) -/

/-- A core that runs with its PC beyond the last loaded word faults, whatever instruction is meant. -/
theorem teamster_beyond {s : State} {n k : Nat} {opc resv : Nat} {body : State → Nat → Core → W64 → TOut}
    (hup : s.phase = .up) (hslot : s.slotOf n = some k)
    (hruns : (s.core k).run = true ∧ (s.core k).stopped = false ∧ (s.core k).wait = none)
    (hpc : (s.core k).nInst ≤ (s.core k).pc) :
    teamster n opc resv body s = .next (s.tfault k n (s.core k) rLengthBounds (s.core k).pc 3) := by
  rw [teamster, if_neg (not_not_intro hup), hslot]
  exact (if_pos hruns).trans (if_pos hpc)

theorem State.leaves_of_not_stepping (s : State) (n k : Nat) (c : Core) (hc : c.stepping = false) :
    s.leaves n k c = s.setCore k c :=
  State.stepDone_of_not_stepping _ k n (by rw [State.core_setCore, if_pos rfl, hc])

/-- Where an instruction leaves its core with the PC beyond the last loaded word, the next fetch faults. -/
theorem FetchedAs.beyond {s : State} {n k : Nat} {i : Instr} {opc resv : Nat} {c : Core} (hi : FetchedAs n i opc resv)
    (hup : s.phase = .up) (hslot : s.slotOf n = some k)
    (hruns : c.run = true ∧ c.stopped = false ∧ c.wait = none) (hstep : c.stepping = false) (hpc : c.nInst ≤ c.pc) :
    exec i (s.leaves n k c) = .next ((s.leaves n k c).tfault k n ((s.leaves n k c).core k) rLengthBounds c.pc 3) := by
  obtain ⟨body, hexec⟩ := hi
  have hcore : (s.setCore k c).core k = c := by rw [State.core_setCore, if_pos rfl]
  rw [s.leaves_of_not_stepping n k c hstep, hexec,
    teamster_beyond (s := s.setCore k c) hup hslot (by rwa [hcore]) (by rwa [hcore]), hcore]

/-! ### The statement -/

/-- Settles O9: the branches by what their comparisons say, the jumps by their outcomes, and the faults by how the
Teamster fetches an instruction. -/
theorem branchesAndJumps : Obligations.BranchesAndJumps := by
  intro s n k w h
  simp only [exec_beq, exec_bne, exec_blt, exec_bge, exec_bltu, exec_bgeu, exec_jal, exec_jalr]
  refine ⟨?beq, ?bne, ?blt, ?bge, ?bltu, ?bgeu, ?jal, fun ho hr => ⟨?jumps, ?faults⟩, ?reserved, ?beyond⟩
  case beq => exact fun ho hr => teamster_branch h ho hr decide_eq_true_iff
  case bne => exact fun ho hr => teamster_branch h ho hr decide_eq_true_iff
  case blt => exact fun ho hr => teamster_branch h ho hr BitVec.slt_iff_toInt_lt
  case bge => exact fun ho hr => teamster_branch h ho hr (not_slt_iff ..)
  case bltu => exact fun ho hr => teamster_branch h ho hr BitVec.ult_iff_toNat_lt
  case bgeu => exact fun ho hr => teamster_branch h ho hr (not_ult_iff ..)
  case jal => exact fun ho hr => execJal_jumps h ho hr
  case jumps => exact fun hlt => execJalr_jumps h ho hr hlt
  case faults => exact fun hle => ⟨execJalr_faults h ho hr hle, fun _ => s.S_tfault ..⟩
  case reserved => exact fun e he ho hr => (fetchedAs_of_mem_controlFlow he).reserved h ho hr
  case beyond =>
    exact fun hstep dest hdest e he => (fetchedAs_of_mem_registerWriters he).beyond
      (c := { s.core k with pc := dest }) h.up h.slot ⟨h.runs, h.notStopped, h.notWaiting⟩ hstep hdest

end Sys2Proof.Machine
